-- ==== Sys2Proof/Word.lean ====
section
/-!
DEFINITION. The word types of the device: bytes, 64-bit registers, vector registers, and the names that
number tiles, slots and owners.
-/
namespace Sys2Proof

/-- A byte of memory, scratchpad or a ring (R3). -/
abbrev Byte := BitVec 8

/-- A 64-bit scalar register or syllable (R114, R89). -/
abbrev Word := BitVec 64

/-- A 2,048-bit vector register (R114). -/
abbrev VReg := BitVec 2048

/-- A logical tile, numbered in rank order of the full 24 x 16 array (R54). -/
abbrev TileId := Fin 384

/-- A hardware queue slot and the drover thread that serves it (R46). -/
abbrev SlotId := Fin 64

/-- An owner tag (R63). -/
abbrev OwnerTag := BitVec 8

end Sys2Proof
end

