-- ==== Sys2Proof/Config.lean ====
section
/-!
DEFINITION. What the spec leaves open: values with no body, of which no proof can know more than the type.
Each is named in the assumption log.
-/
namespace Sys2Proof.Config

/-- A fresh value for a point that the spec leaves open; State counts the uses (log 5). -/
opaque freeWord : Nat → BitVec 64

/-- SM3, which the spec names and does not define (R8, R84; log 7). -/
opaque sm3 : List (BitVec 8) → BitVec 256

/-- Whether an SM2 signature over a digest verifies under the key whose SM3 digest is the signer (R7, R8; log 7). -/
opaque sm2Verify : (signer digest : BitVec 256) → (signature : BitVec 512) → Bool

/-- The stage manager's SM2 signature over a digest (R363; log 7). -/
opaque sm2Sign : BitVec 256 → BitVec 512

/-- What a byte stored under one key reads as under another (R67; log 8): the two key numbers, the address and
the byte. -/
opaque garble : (written read : Nat) → (pa : Nat) → BitVec 8 → BitVec 8

/-- The channel, 0 to 63, that holds a device line (R343): no rule states the interleaving (log 29). -/
opaque channelOf : (line : Nat) → Fin 64

/-- The LPDDR-6 row that holds a device line, and the 64 KiB frames that the row touches beside the line's own (R343): no
rule states the interleaving (log 29). -/
opaque rowOf : (line : Nat) → Nat
opaque rowFrames : (row : Nat) → List Nat

/-- The device serial number (R307, R363; log 10). -/
opaque serial : BitVec 64

/-- The public-key digest fused in the die (R361; log 10). -/
opaque fusedKey : BitVec 256

/-- The minimum firmware version fused in the die (R361; log 10). -/
opaque fusedMin : BitVec 16

/-- The SM3 digest of the drover firmware that the device was built with (R363; log 10). -/
opaque droverDigest : BitVec 256

/-- The SM3 digest of the stage-manager firmware that the device was built with (R363; log 10). -/
opaque smDigest : BitVec 256

/-- The certificate of the identity key, of which no rule states the bytes (R32, R363; log 95). -/
opaque certificate : List (BitVec 8)

/-- Where a drover thread's address map holds the registers of the physical function (R190; log 94). -/
opaque droverRegs : BitVec 64

/-- Where it holds rt.bnd of the tiles, 8 bytes a tile (R60), and the registers of the domains, 64 bytes a domain (R69; log
94). -/
opaque droverBnds : BitVec 64
opaque droverDoms : BitVec 64

/-- The set of a slice that a line goes to (R74): no rule states the index (log 41). -/
opaque cacheSet : (line : Nat) → Nat

/-- What the drover reads of a byte that carries an uncorrectable error: no rule states it (R326; log 98). -/
opaque errorByte : (pa : Nat) → BitVec 8 → BitVec 8

/-- What a read of a notify page with a slot behind it returns (R34; log 96). -/
opaque notifyRead : (slot : Nat) → BitVec 64

/-- Whether 0 × ∞ added to a quiet NaN raises NV: IEEE 754-2019, which R141 takes, leaves it to the
implementation (log 11). -/
opaque fmaNanInvalid : Bool

end Sys2Proof.Config
end

