-- ==== Sys2Proof/Syntax.lean ====
section
/-!
DEFINITION. The abstract syntax: operand kinds, and ONE constructor per row of the opcode table. A syllable
carries its guard (R90, R96) and its operand fields (R92 to R94). A row that is a step of the hardware itself
carries what names that step (which tile, entry, packet or register), and what the outside party brings to it.
-/
namespace Sys2Proof

/-- The guard of a syllable: codes 0 to 7 are p0 to p7, 8 to 15 are s0 to s7 (R90, R96). -/
structure Guard where
  idx : Fin 16
  neg : Bool
deriving DecidableEq, Repr

/-- An x or v source: a register, or a pop of a ring (R93). -/
inductive Src where
  | reg (n : Fin 32)
  | pop (q : Fin 16)
deriving DecidableEq, Repr

/-- A matrix source: a panel, or a pop of a ring (R93). -/
inductive MSrc where
  | panel (n : Fin 4)
  | pop (q : Fin 16)
deriving DecidableEq, Repr

/-- Where MLD puts its data: a ring of a tile context (R185), or an x register of a drover thread (R190). -/
inductive MDst where
  | ring (q : Fin 16)
  | xreg (n : Fin 32)
deriving DecidableEq, Repr

/-- The type codes 0 to 6 (R94). -/
inductive Ty where
  | i64 | i32 | i16 | i8 | f32 | bf16 | f16
deriving DecidableEq, Repr

/-- The rounding modes (R139). -/
inductive Rm where
  | rne | rz | ru | rd
deriving DecidableEq, Repr

/-- The integer compare conditions (R136). -/
inductive ICond where
  | eq | ne | lt | ge | ltu | geu
deriving DecidableEq, Repr

/-- The floating-point compare conditions (R143). -/
inductive FCond where
  | eq | lt | le | un | ne
deriving DecidableEq, Repr

/-- The condition field of VCMP, read by lane type: codes 0 to 5 on integer lanes, 0 to 4 on float lanes (R236). -/
inductive VCond where
  | c0 | c1 | c2 | c3 | c4 | c5
deriving DecidableEq, Repr

/-- The operations of CONDW (R151). -/
inductive CondwOp where
  | set | or | clr
deriving DecidableEq, Repr

/-- The operations of AMO (R185). -/
inductive AmoOp where
  | add | and | or | xor | min | max | minu | maxu | swap
deriving DecidableEq, Repr

/-- The order field of AMO and AMOCAS (R185). -/
inductive MemOrd where
  | rlx | acq | rel | acqrel
deriving DecidableEq, Repr

/-- The scopes that an instruction can name (R282). -/
inductive Scope where
  | tile | paddock | device | system
deriving DecidableEq, Repr

/-- The twenty operand formats of the matrix engine (R207). -/
inductive MFmt where
  | bf16 | f16 | e4m3 | e5m2 | mx8e4 | mx8e5 | f6 | f6m3 | f4 | mxi8
  | i8 | u8 | i4 | u4 | tap8 | tap6 | mxtap8 | mxtap6 | f32 | i16
deriving DecidableEq, Repr

/-- The operations of VSCAN and NETRED (R246, R300). -/
inductive ScanOp where
  | add | max | min
deriving DecidableEq, Repr

/-- The steps of a cell-operation sequence (R262). -/
inductive CellOp where
  | ma | ada | csel
deriving DecidableEq, Repr

/-- The three modes of PMOV (R138). -/
inductive PmovForm where
  | fx (d : Fin 16) (a : Src)
  | tx (d : Fin 32) (a : Fin 16)
  | pp (d : Fin 16) (a : Fin 16)
deriving DecidableEq, Repr

/-- The shift amount of VSHL, VSHR and VSAR: lanes of a vector, or an immediate (R235). -/
inductive VShift where
  | lanes (b : Src)
  | imm (k : BitVec 6)
deriving DecidableEq, Repr

/-- The three modes of VMOVP (R238). -/
inductive VmovpForm where
  | any (d : Fin 16) (a : Src)
  | all (d : Fin 16) (a : Src)
  | sp (d : Fin 32) (a : Fin 16)
deriving DecidableEq, Repr

/-- The two forms of MFLG (R267). -/
inductive MflgForm where
  | row (d : Fin 32) (a : Fin 4) (b : Src)
  | any (d : Fin 16) (a : Fin 4)
deriving DecidableEq, Repr

/-- A context of a tile, or a drover thread (R114, R157). -/
inductive Agent where
  | ctx (t : TileId) (c : Fin 4)
  | drover (n : SlotId)
deriving DecidableEq, Repr

/-- What issues bundles: a tile, for whichever context its selector runs (R116), or a drover thread. -/
inductive Issuer where
  | tile (t : TileId)
  | drover (n : SlotId)
deriving DecidableEq, Repr

/-- Where an uncorrectable error lies (R326). -/
inductive ErrSite where
  | scratch (t : TileId) (off : Nat)   -- a byte of scratchpad
  | bank (t : TileId) (which : Bool) (off : Nat)
  | slc (slice pa : Nat)               -- a line of the system-level cache, at a slice
  | dram (pa : Nat)                    -- a row of LPDDR-6
  | pageTable (p : Nat)                -- in a page table, read on behalf of launch p
  | drover (p : Nat)                   -- drover storage that serves launch p
  | greenRoom (p : Nat)                -- the image of launch p
deriving DecidableEq, Repr

/-- A frame on the Duotte cable: its number, the stream of its slot, its flits (none for a null frame), whether
FEC failed on it, whether its side is under a curtain (R315), and the frame number that its header reports as
uncorrectable (R306, R312). -/
structure LinkFrame where
  num : BitVec 48
  stream : Fin 64
  flits : List (BitVec 1024)
  null : Bool
  bad : Bool
  curtained : Bool
  report : Option (BitVec 48)
deriving DecidableEq, Repr

/-- What the stage manager finds at power-on (R361): whether the firmware images and the identity verify, the
failed channels, the failed physical tiles (column, row), and the version of the running firmware. -/
structure BringUp where
  fwOk : Bool
  idOk : Bool
  fwver : BitVec 16
  badChans : List Nat
  failed : List (Nat × Nat)
deriving DecidableEq, Repr

/-- One constructor per row of the opcode table. -/
inductive Instr where
  -- K class (R100)
  /-- BR (R145). -/
  | br (g : Guard) (off : BitVec 32)
  /-- BRP (R145). -/
  | brp (g : Guard) (off : BitVec 32) (neg : Bool) (p : Fin 16)
  /-- BRX (R146). -/
  | brx (g : Guard) (a : Src) (link : Bool)
  /-- CALL (R147). -/
  | call (g : Guard) (off : BitVec 32)
  /-- CALLX (R147). -/
  | callx (g : Guard) (d : Fin 32) (a : Src) (link : Bool)
  /-- RET (R146). -/
  | ret (g : Guard) (a : Src)
  /-- LOOP (R148). -/
  | loop (g : Guard) (off : BitVec 32) (stages : BitVec 4) (n : BitVec 12)
  /-- LOOPX (R148). -/
  | loopx (g : Guard) (a : Src) (dist : BitVec 14) (stages : BitVec 4)
  /-- CLOSE (R125). -/
  | close (g : Guard)
  /-- YIELD (R149). -/
  | yield (g : Guard)
  /-- ENDT (R150). -/
  | endt (g : Guard)
  /-- CONDW (R151). -/
  | condw (g : Guard) (a : Src) (word : BitVec 6) (o : CondwOp)
  /-- TOKEN (R152). -/
  | token (g : Guard) (a : Src) (b : Src)
  /-- TRAP (R153). -/
  | trap (g : Guard) (code : BitVec 16)
  /-- SYSC (R154). -/
  | sysc (g : Guard) (num : BitVec 16)
  /-- ERET (R324). -/
  | eret (g : Guard)
  /-- CSRRD (R156). -/
  | csrrd (g : Guard) (d : Fin 32) (csr : BitVec 12)
  /-- CSRWR (R156). -/
  | csrwr (g : Guard) (d : Fin 32) (a : Src) (csr : BitVec 12)
  /-- CSRSET (R156). -/
  | csrset (g : Guard) (d : Fin 32) (a : Src) (csr : BitVec 12)
  /-- CSRCLR (R156). -/
  | csrclr (g : Guard) (d : Fin 32) (a : Src) (csr : BitVec 12)
  -- I class (R101)
  /-- ADD (R131). -/
  | add (g : Guard) (t : Ty) (d : Fin 32) (a : Src) (b : Src)
  /-- ADDI (R131). -/
  | addi (g : Guard) (t : Ty) (d : Fin 32) (a : Src) (imm : BitVec 36)
  /-- SUB (R131). -/
  | sub (g : Guard) (t : Ty) (d : Fin 32) (a : Src) (b : Src)
  /-- MUL (R131). -/
  | mul (g : Guard) (t : Ty) (d : Fin 32) (a : Src) (b : Src)
  /-- MULH (R131). -/
  | mulh (g : Guard) (t : Ty) (d : Fin 32) (a : Src) (b : Src)
  /-- MULHU (R131). -/
  | mulhu (g : Guard) (t : Ty) (d : Fin 32) (a : Src) (b : Src)
  /-- DIV (R132). -/
  | div (g : Guard) (t : Ty) (d : Fin 32) (a : Src) (b : Src)
  /-- DIVU (R132). -/
  | divu (g : Guard) (t : Ty) (d : Fin 32) (a : Src) (b : Src)
  /-- REM (R132). -/
  | rem (g : Guard) (t : Ty) (d : Fin 32) (a : Src) (b : Src)
  /-- REMU (R132). -/
  | remu (g : Guard) (t : Ty) (d : Fin 32) (a : Src) (b : Src)
  /-- AND (R131). -/
  | and (g : Guard) (t : Ty) (d : Fin 32) (a : Src) (b : Src)
  /-- ANDI (R131). -/
  | andi (g : Guard) (t : Ty) (d : Fin 32) (a : Src) (imm : BitVec 36)
  /-- OR (R131). -/
  | or (g : Guard) (t : Ty) (d : Fin 32) (a : Src) (b : Src)
  /-- ORI (R131). -/
  | ori (g : Guard) (t : Ty) (d : Fin 32) (a : Src) (imm : BitVec 36)
  /-- XOR (R131). -/
  | xor (g : Guard) (t : Ty) (d : Fin 32) (a : Src) (b : Src)
  /-- XORI (R131). -/
  | xori (g : Guard) (t : Ty) (d : Fin 32) (a : Src) (imm : BitVec 36)
  /-- SHL (R131). -/
  | shl (g : Guard) (t : Ty) (d : Fin 32) (a : Src) (b : Src)
  /-- SHLI (R131). -/
  | shli (g : Guard) (t : Ty) (d : Fin 32) (a : Src) (imm : BitVec 36)
  /-- SHR (R131). -/
  | shr (g : Guard) (t : Ty) (d : Fin 32) (a : Src) (b : Src)
  /-- SHRI (R131). -/
  | shri (g : Guard) (t : Ty) (d : Fin 32) (a : Src) (imm : BitVec 36)
  /-- SAR (R131). -/
  | sar (g : Guard) (t : Ty) (d : Fin 32) (a : Src) (b : Src)
  /-- SARI (R131). -/
  | sari (g : Guard) (t : Ty) (d : Fin 32) (a : Src) (imm : BitVec 36)
  /-- CLZ (R131). -/
  | clz (g : Guard) (t : Ty) (d : Fin 32) (a : Src)
  /-- CTZ (R131). -/
  | ctz (g : Guard) (t : Ty) (d : Fin 32) (a : Src)
  /-- POPC (R131). -/
  | popc (g : Guard) (t : Ty) (d : Fin 32) (a : Src)
  /-- MIN (R131). -/
  | min (g : Guard) (t : Ty) (d : Fin 32) (a : Src) (b : Src)
  /-- MAX (R131). -/
  | max (g : Guard) (t : Ty) (d : Fin 32) (a : Src) (b : Src)
  /-- MINU (R131). -/
  | minu (g : Guard) (t : Ty) (d : Fin 32) (a : Src) (b : Src)
  /-- MAXU (R131). -/
  | maxu (g : Guard) (t : Ty) (d : Fin 32) (a : Src) (b : Src)
  /-- SEL (R137). -/
  | sel (g : Guard) (d : Fin 32) (a : Src) (b : Src) (c : Fin 16)
  /-- CMP (R136). -/
  | cmp (g : Guard) (t : Ty) (d : Fin 16) (a : Src) (b : Src) (cond : ICond)
  /-- CMPI (R136). -/
  | cmpi (g : Guard) (t : Ty) (d : Fin 16) (a : Src) (cond : ICond) (imm : BitVec 32)
  /-- MOVW (R134). -/
  | movw (g : Guard) (d : Fin 32) (imm : BitVec 42)
  /-- MOVHI (R134). -/
  | movhi (g : Guard) (d : Fin 32) (imm : BitVec 22)
  /-- EXTB (R135). -/
  | extb (g : Guard) (d : Fin 32) (a : Src) (pos : BitVec 6) (len1 : BitVec 6) (sign : Bool)
  /-- INSB (R135). -/
  | insb (g : Guard) (d : Fin 32) (a : Src) (pos : BitVec 6) (len1 : BitVec 6)
  /-- FADD (R140). -/
  | fadd (g : Guard) (t : Ty) (d : Fin 32) (a : Src) (b : Src) (rm : Rm)
  /-- FSUB (R140). -/
  | fsub (g : Guard) (t : Ty) (d : Fin 32) (a : Src) (b : Src) (rm : Rm)
  /-- FMUL (R140). -/
  | fmul (g : Guard) (t : Ty) (d : Fin 32) (a : Src) (b : Src) (rm : Rm)
  /-- FFMA (R140). -/
  | ffma (g : Guard) (t : Ty) (d : Fin 32) (a : Src) (b : Src) (c : Src) (rm : Rm)
  /-- FDIV (R140). -/
  | fdiv (g : Guard) (t : Ty) (d : Fin 32) (a : Src) (b : Src) (rm : Rm)
  /-- FSQRT (R140). -/
  | fsqrt (g : Guard) (t : Ty) (d : Fin 32) (a : Src) (rm : Rm)
  /-- FCVT (R142). -/
  | fcvt (g : Guard) (t : Ty) (d : Fin 32) (a : Src) (rm : Rm) (frm : Ty) (u : Bool)
  /-- FCMP (R143). -/
  | fcmp (g : Guard) (t : Ty) (d : Fin 16) (a : Src) (b : Src) (cond : FCond)
  /-- PLOG (R138). -/
  | plog (g : Guard) (d : Fin 16) (a : Fin 16) (b : Fin 16) (f : BitVec 4)
  /-- PMOV (R138). -/
  | pmov (g : Guard) (f : PmovForm)
  -- A class (R102)
  /-- LDS (R176). -/
  | lds (g : Guard) (t : Ty) (d : Fin 32) (a : Src) (w : Fin 8) (u : Bool) (disp : BitVec 32)
  /-- STS (R176). -/
  | sts (g : Guard) (t : Ty) (d : Src) (a : Src) (w : Fin 8) (disp : BitVec 32)
  /-- LDV (R176). -/
  | ldv (g : Guard) (d : Fin 32) (a : Src) (w : Fin 8) (disp : BitVec 32)
  /-- STV (R176). -/
  | stv (g : Guard) (d : Src) (a : Src) (w : Fin 8) (disp : BitVec 32)
  /-- LDVS (R177). -/
  | ldvs (g : Guard) (t : Ty) (d : Fin 32) (a : Src) (b : Src) (w : Fin 8)
  /-- GATH (R178). -/
  | gath (g : Guard) (d : Fin 32) (a : Src) (b : Src) (w : Fin 8)
  /-- SCAT (R178). -/
  | scat (g : Guard) (d : Src) (a : Src) (b : Src) (w : Fin 8)
  /-- WINSET (R180). -/
  | winset (g : Guard) (d : Fin 8) (a : Src) (b : Src)
  /-- RINGSET (R181). -/
  | ringset (g : Guard) (d : Fin 16) (a : Src) (lsize : BitVec 5) (esz : BitVec 4)
  /-- RADV (R182). -/
  | radv (g : Guard) (d : Fin 16) (a : Src) (n : BitVec 17)
  /-- RREL (R182). -/
  | rrel (g : Guard) (d : Fin 16) (a : Src) (n : BitVec 17)
  /-- XLT (R183). -/
  | xlt (g : Guard) (d : Fin 16) (a : Src)
  /-- HREL (R184). -/
  | hrel (g : Guard) (d : Fin 16)
  /-- HINFO (R184). -/
  | hinfo (g : Guard) (d : Fin 32) (a : Fin 16) (va : Bool)
  /-- MLD (R187). -/
  | mld (g : Guard) (t : Ty) (d : MDst) (a : Src) (h : Fin 16) (u : Bool) (disp : BitVec 31)
  /-- MLDV (R187). -/
  | mldv (g : Guard) (d : Fin 16) (a : Src) (h : Fin 16) (disp : BitVec 31)
  /-- MGATH (R188). -/
  | mgath (g : Guard) (t : Ty) (d : Fin 16) (a : Src) (b : Src) (c : Fin 32)
  /-- MST (R185). -/
  | mst (g : Guard) (t : Ty) (d : Src) (a : Src) (h : Fin 16) (disp : BitVec 31)
  /-- MSTV (R185). -/
  | mstv (g : Guard) (d : Src) (a : Src) (h : Fin 16) (disp : BitVec 31)
  /-- AMO (R185). -/
  | amo (g : Guard) (t : Ty) (d : Fin 16) (a : Src) (b : Src) (o : AmoOp) (ord : MemOrd) (sc : Scope) (h : Fin 16)
  /-- AMOCAS (R187). -/
  | amocas (g : Guard) (t : Ty) (d : Fin 16) (a : Src) (b : Src) (c : Src) (ord : MemOrd) (sc : Scope) (h : Fin 16)
  /-- SQLD (R191). -/
  | sqld (g : Guard) (d : Fin 2) (a : Src) (n1 : BitVec 4) (h : Fin 16)
  /-- SQPUSH (R191). -/
  | sqpush (g : Guard) (d : Fin 2) (a : Src) (n1 : BitVec 3)
  /-- DISC (R193). -/
  | disc (g : Guard) (a : Src) (b : Src) (h : Fin 16)
  -- V class (R103)
  /-- VADD (R232). -/
  | vadd (g : Guard) (t : Ty) (d : Fin 32) (a : Src) (b : Src) (rm : Rm) (sat : Bool) (u : Bool)
  /-- VSUB (R232). -/
  | vsub (g : Guard) (t : Ty) (d : Fin 32) (a : Src) (b : Src) (rm : Rm) (sat : Bool) (u : Bool)
  /-- VMUL (R232). -/
  | vmul (g : Guard) (t : Ty) (d : Fin 32) (a : Src) (b : Src) (rm : Rm) (sat : Bool) (u : Bool)
  /-- VFMA (R232). -/
  | vfma (g : Guard) (t : Ty) (d : Fin 32) (a : Src) (b : Src) (c : Src) (rm : Rm) (sat : Bool) (u : Bool)
  /-- VFMS (R232). -/
  | vfms (g : Guard) (t : Ty) (d : Fin 32) (a : Src) (b : Src) (c : Src) (rm : Rm) (sat : Bool) (u : Bool)
  /-- VMIN (R233). -/
  | vmin (g : Guard) (t : Ty) (d : Fin 32) (a : Src) (b : Src) (u : Bool)
  /-- VMAX (R233). -/
  | vmax (g : Guard) (t : Ty) (d : Fin 32) (a : Src) (b : Src) (u : Bool)
  /-- VABS (R234). -/
  | vabs (g : Guard) (t : Ty) (d : Fin 32) (a : Src) (sat : Bool)
  /-- VNEG (R234). -/
  | vneg (g : Guard) (t : Ty) (d : Fin 32) (a : Src) (sat : Bool)
  /-- VAND (R235). -/
  | vand (g : Guard) (t : Ty) (d : Fin 32) (a : Src) (b : Src)
  /-- VOR (R235). -/
  | vor (g : Guard) (t : Ty) (d : Fin 32) (a : Src) (b : Src)
  /-- VXOR (R235). -/
  | vxor (g : Guard) (t : Ty) (d : Fin 32) (a : Src) (b : Src)
  /-- VSHL (R235). -/
  | vshl (g : Guard) (t : Ty) (d : Fin 32) (a : Src) (k : VShift)
  /-- VSHR (R235). -/
  | vshr (g : Guard) (t : Ty) (d : Fin 32) (a : Src) (k : VShift)
  /-- VSAR (R235). -/
  | vsar (g : Guard) (t : Ty) (d : Fin 32) (a : Src) (k : VShift)
  /-- VCMP (R236). -/
  | vcmp (g : Guard) (t : Ty) (d : Fin 32) (a : Src) (b : Src) (cond : VCond)
  /-- VSEL (R237). -/
  | vsel (g : Guard) (t : Ty) (d : Fin 32) (a : Src) (b : Src) (c : Src)
  /-- VCVT (R240). -/
  | vcvt (g : Guard) (t : BitVec 3) (d : Fin 32) (a : Src) (rm : Rm) (sat : Bool) (u : Bool) (frm : BitVec 3) (fmt : BitVec 5) (part : BitVec 4)
  /-- VQUANT (R241). -/
  | vquant (g : Guard) (t : Ty) (d : Fin 32) (a : Src) (c : Fin 32) (rm : Rm) (fmt : MFmt) (part : BitVec 4)
  /-- VDEQ (R242). -/
  | vdeq (g : Guard) (t : Ty) (d : Fin 32) (a : Src) (b : Src) (rm : Rm) (fmt : MFmt) (part : BitVec 4)
  /-- VRCP (R243). -/
  | vrcp (g : Guard) (t : Ty) (d : Fin 32) (a : Src) (rm : Rm) (full : Bool)
  /-- VRSQ (R243). -/
  | vrsq (g : Guard) (t : Ty) (d : Fin 32) (a : Src) (rm : Rm) (full : Bool)
  /-- VEXP2 (R243). -/
  | vexp2 (g : Guard) (t : Ty) (d : Fin 32) (a : Src) (rm : Rm) (full : Bool)
  /-- VLOG2 (R243). -/
  | vlog2 (g : Guard) (t : Ty) (d : Fin 32) (a : Src) (rm : Rm) (full : Bool)
  /-- VRSUM (R245). -/
  | vrsum (g : Guard) (t : Ty) (d : Fin 32) (a : Src) (rm : Rm) (sat : Bool) (u : Bool)
  /-- VRMAX (R245). -/
  | vrmax (g : Guard) (t : Ty) (d : Fin 32) (a : Src) (u : Bool)
  /-- VRMIN (R245). -/
  | vrmin (g : Guard) (t : Ty) (d : Fin 32) (a : Src) (u : Bool)
  /-- VSCAN (R246). -/
  | vscan (g : Guard) (t : Ty) (d : Fin 32) (a : Src) (rm : Rm) (sat : Bool) (u : Bool) (o : ScanOp)
  /-- VPERM (R247). -/
  | vperm (g : Guard) (t : Ty) (d : Fin 32) (a : Src) (b : Src)
  /-- VSPLAT (R247). -/
  | vsplat (g : Guard) (t : Ty) (d : Fin 32) (a : Src)
  /-- VINS (R247). -/
  | vins (g : Guard) (t : Ty) (d : Fin 32) (a : Src) (b : Src)
  /-- VEXT (R247). -/
  | vext (g : Guard) (t : Ty) (d : Fin 32) (a : Src) (b : Src) (u : Bool)
  /-- VIOTA (R247). -/
  | viota (g : Guard) (t : Ty) (d : Fin 32) (a : Src) (b : Src)
  /-- VPART (R248). -/
  | vpart (g : Guard) (t : Ty) (d : Fin 32) (a : Src) (b : Src) (c : Fin 32) (arm : Bool) (s : BitVec 4)
  /-- VCOMP (R249). -/
  | vcomp (g : Guard) (t : Ty) (d : Fin 32) (a : Src) (b : Src) (c : Fin 32)
  /-- VEXPD (R249). -/
  | vexpd (g : Guard) (t : Ty) (d : Fin 32) (a : Src) (b : Src)
  /-- VPCNT (R238). -/
  | vpcnt (g : Guard) (t : Ty) (d : Fin 32) (a : Src)
  /-- VMOVP (R238). -/
  | vmovp (g : Guard) (t : Ty) (f : VmovpForm)
  /-- VMULH (R232). -/
  | vmulh (g : Guard) (t : Ty) (d : Fin 32) (a : Src) (b : Src) (u : Bool)
  /-- VCLAMP (R233). -/
  | vclamp (g : Guard) (t : Ty) (d : Fin 32) (a : Src) (b : Src) (c : Src) (u : Bool)
  -- M class (R104)
  /-- MMA (R258). -/
  | mma (g : Guard) (d : Fin 4) (a : MSrc) (b : MSrc) (c : Src) (fa : MFmt) (fb : MFmt) (kb : BitVec 3) (z : Bool)
  /-- MMAS (R259). -/
  | mmas (g : Guard) (d : Fin 4) (a : MSrc) (b : MSrc) (c : MSrc) (fa : MFmt) (fb : MFmt) (kb : BitVec 3) (z : Bool) (n8 : Bool)
  /-- MZERO (R265). -/
  | mzero (g : Guard) (d : Fin 4)
  /-- MLDP (R266). -/
  | mldp (g : Guard) (t : Ty) (d : Fin 4) (a : Src) (b : Fin 8) (c : Src) (u : Bool)
  /-- MSTP (R266). -/
  | mstp (g : Guard) (t : Ty) (d : Fin 8) (a : Src) (b : Fin 4) (c : Src) (rm : Rm) (sat : Bool) (u : Bool)
  /-- MROW (R265). -/
  | mrow (g : Guard) (d : Fin 32) (a : Fin 4) (b : Src)
  /-- MRPUT (R265). -/
  | mrput (g : Guard) (d : Fin 4) (a : Src) (b : Src)
  /-- MTRN (R265). -/
  | mtrn (g : Guard) (d : Fin 4) (a : Fin 4)
  /-- MOPS (R262). -/
  | mops (g : Guard) (imm : BitVec 42)
  /-- MWIN (R264). -/
  | mwin (g : Guard) (win : BitVec 3)
  /-- MFLG (R267). -/
  | mflg (g : Guard) (f : MflgForm)
  /-- MFCLR (R267). -/
  | mfclr (g : Guard) (d : Fin 4)
  /-- MSCL (R270). -/
  | mscl (g : Guard) (d : Fin 4) (a : Fin 4) (b : Src) (rm : Rm)
  /-- MEXP (R269). -/
  | mexp (g : Guard) (d : Fin 4) (a : Fin 4) (b : Src) (c : Src)
  /-- MMAX (R268). -/
  | mmax (g : Guard) (d : Fin 32) (a : Fin 4) (b : Src)
  -- E class (R105)
  /-- SEQ (R200). -/
  | seq (g : Guard) (d : Fin 8) (a : Src) (q : Fin 4)
  /-- SEQGO (R200). -/
  | seqgo (g : Guard) (a : Src) (q : Fin 4)
  /-- CPY (R197). -/
  | cpy (g : Guard) (d : Fin 8) (a : Src) (q : Fin 4)
  /-- CPYR (R197). -/
  | cpyr (g : Guard) (d : Fin 8) (a : Src) (q : Fin 4)
  /-- MCAST (R197). -/
  | mcast (g : Guard) (d : Fin 8) (a : Src) (q : Fin 4)
  /-- CNTADD (R203). -/
  | cntadd (g : Guard) (a : Src) (q : BitVec 3) (k : BitVec 9)
  /-- CNTWAIT (R204). -/
  | cntwait (g : Guard) (a : Src) (k : BitVec 9)
  /-- CNTRD (R205). -/
  | cntrd (g : Guard) (d : Fin 32) (a : Src) (remote : Bool) (k : BitVec 9)
  /-- QFENCE (R291). -/
  | qfence (g : Guard) (mask : BitVec 6)
  /-- DRAIN (R286). -/
  | drain (g : Guard)
  /-- FENCE (R287). -/
  | fence (g : Guard) (sc : Scope)
  /-- BAR (R295). -/
  | bar (g : Guard) (id : BitVec 2) (sc : Scope) (smask : BitVec 16)
  /-- SCENE (R298). -/
  | scene (g : Guard)
  /-- NETRED (R300). -/
  | netred (g : Guard) (t : Ty) (d : Fin 32) (a : Src) (b : Src) (grp : BitVec 3) (o : ScanOp) (u : Bool) (sat : Bool)
  /-- NETBC (R301). -/
  | netbc (g : Guard) (t : Ty) (d : Fin 32) (a : Src) (b : Src) (c : Src) (grp : BitVec 3)
  /-- REDOPEN (R302). -/
  | redopen (g : Guard) (d : Fin 32) (a : Src) (bf : Bool) (bexp : BitVec 9) (len1 : BitVec 14)
  /-- REDCLOSE (R304). -/
  | redclose (g : Guard) (d : Fin 32) (a : Src)
  /-- FLKADD (R273). -/
  | flkadd (g : Guard) (a : Src) (flk : BitVec 8) (st : BitVec 2)
  /-- FLKDEL (R273). -/
  | flkdel (g : Guard) (a : Src) (flk : BitVec 8)
  /-- PGCAST (R274). -/
  | pgcast (g : Guard) (d : Fin 8) (a : Src) (q : Fin 4)
  /-- MERGE (R279). -/
  | merge (g : Guard) (a : Src) (b : Src) (c : Src) (st : BitVec 2)
  /-- MRGDRN_OPEN (R280). -/
  | mrgdrnOpen (g : Guard) (a : Src) (st : BitVec 2)
  /-- MRGDRN_DRAIN (R280). -/
  | mrgdrnDrain (g : Guard) (a : Src) (st : BitVec 2)
  /-- MRGDRN_FIN (R280). -/
  | mrgdrnFin (g : Guard) (d : Fin 32) (st : BitVec 2)
  /-- RSV (R192). -/
  | rsv (g : Guard) (d : Fin 32) (a : Src) (dom : BitVec 3)
  /-- UNRSV (R192). -/
  | unrsv (g : Guard) (d : Fin 32) (a : Src) (dom : BitVec 3)
  /-- LKSEND_DATA (R311). -/
  | lksendData (g : Guard) (d : Fin 8) (a : Src) (q : Fin 4) (port : Bool) (stream : BitVec 6) (nflit : BitVec 14) (cnt : Bool) (cidx : BitVec 9)
  /-- LKSEND_RST (R313). -/
  | lksendRst (g : Guard) (a : Src) (port : Bool) (stream : BitVec 6)
  /-- LKRECV_POST (R311). -/
  | lkrecvPost (g : Guard) (d : Fin 8) (a : Src) (q : Fin 4) (port : Bool) (stream : BitVec 6) (nflit : BitVec 14) (cnt : Bool) (cidx : BitVec 9)
  /-- LKRECV_RST (R313). -/
  | lkrecvRst (g : Guard) (a : Src) (port : Bool) (stream : BitVec 6)
  /-- LKRECV_FRAME (R311). -/
  | lkrecvFrame (g : Guard) (d : Fin 32) (port : Bool)
  /-- CONDV (R201). -/
  | condv (g : Guard) (a : Fin 16) (n : BitVec 2)
  /-- CPYWAIT (R206). -/
  | cpywait (g : Guard) (mask : BitVec 4)
  -- steps of the hardware itself (95_what_each_step_holds.md)
  /-- BUNDLE_FETCH (R91). -/
  | bundleFetch (u : Issuer)
  /-- CLOSING_POINT (R124). -/
  | closingPoint (g : Agent)
  /-- PROMPTER_CYCLE (R118). -/
  | prompterCycle (t : TileId)
  /-- CONDW_APPLY (R121). -/
  | condwApply (p : Nat) (k : Nat)
  /-- TOKEN_ARRIVAL (R122). -/
  | tokenArrival (p : Nat)
  /-- DELIVER (R319). -/
  | deliver (g : Agent)
  /-- RECORD_DELIVERY (R322). -/
  | recordDelivery (t : TileId) (c : Fin 4)
  /-- SYSTEM_FAULT (R325). -/
  | systemFault (p : Nat)
  /-- POINT_OVERRUN (R330). -/
  | pointOverrun (t : TileId)
  /-- DATA_ERROR (R326). -/
  | dataError (e : ErrSite)
  /-- WALK_LANDS (R166). -/
  | walkLands (t : TileId) (c : Fin 4) (h : Fin 16)
  /-- LOAD_LANDS (R165). -/
  | loadLands (t : TileId) (id : Nat)
  /-- SCALE_LOAD_LANDS (R191). -/
  | scaleLoadLands (t : TileId) (id : Nat)
  /-- REMOTE_ACCESS_PERFORMED (R284). -/
  | remoteAccessPerformed (t : TileId) (id : Nat) (k : Nat)
  /-- ALLOCATION_DECISION (R189). -/
  | allocationDecision (t : TileId) (id : Nat)
  /-- SEQUENCER_EMIT (R170). -/
  | sequencerEmit (t : TileId) (k : Fin 4)
  /-- COPY_PERFORM (R198). -/
  | copyPerform (t : TileId) (q : Fin 4)
  /-- DIR2_INJECT (R198). -/
  | dir2Inject (t : TileId) (q : Fin 4)
  /-- COPY_COMPLETION (R172). -/
  | copyCompletion (t : TileId) (q : Fin 4)
  /-- MATRIX_ENTRY_START (R261). -/
  | matrixEntryStart (t : TileId)
  /-- MATRIX_ENTRY_WRITE (R261). -/
  | matrixEntryWrite (t : TileId)
  /-- E5_ENTRY_SEND (R292). -/
  | e5EntrySend (t : TileId)
  /-- BAR_ARRIVAL (R295). -/
  | barArrival (p : Nat) (k : Nat)
  /-- BAR_COMPLETION (R295). -/
  | barCompletion (p : Nat) (id : Fin 4)
  /-- NETRED_CONTRIBUTION (R300). -/
  | netredContribution (p : Nat) (k : Nat)
  /-- NETRED_RESULT (R300). -/
  | netredResult (p : Nat) (grp : Fin 8)
  /-- NETBC_RESULT (R301). -/
  | netbcResult (p : Nat) (grp : Fin 8)
  /-- WINDOW_OPEN (R302). -/
  | windowOpen (t : TileId) (id : Nat)
  /-- WINDOW_CLOSE (R304). -/
  | windowClose (t : TileId) (id : Nat)
  /-- SCENE_SWAP (R298). -/
  | sceneSwap (p : Nat)
  /-- FLOCK_EVENT (R272). -/
  | flockEvent (p : Nat) (k : Nat)
  /-- PASS_BEGIN (R275). -/
  | passBegin (p : Nat) (k : Nat)
  /-- PAGE_LANDING (R278). -/
  | pageLanding (p : Nat) (k : Nat)
  /-- PASS_COMPLETION (R275). -/
  | passCompletion (p : Nat) (k : Nat)
  /-- COUNTER_WAIT (R40). -/
  | counterWait (n : SlotId) (k : Nat)
  /-- TRANSLATION_INVALIDATION (R167). -/
  | translationInvalidation (o : OwnerTag) (va : BitVec 64) (large : Bool)
  /-- MIGRATION (R81). -/
  | migration (o : OwnerTag) (va : BitVec 64) (e : Fin 8)
  /-- FN_PROXY_REPLY (R52). -/
  | fnProxyReply (fn : Fin 17) (callid : BitVec 32) (result : BitVec 64)
  /-- CURTAIN (R329). -/
  | curtain (p : Nat)
  /-- FUNCTION_RESET (R53). -/
  | functionReset (fn : Fin 17)
  /-- FUNCTION_LEVEL_RESET (R53). -/
  | functionLevelReset (fn : Fin 17)
  /-- HOT_RESET (R53). -/
  | hotReset
  /-- DEV_RECLAIM (R48). -/
  | devReclaim (cl : Fin 4)
  /-- SLOT_BIND (R45). -/
  | slotBind (n : SlotId) (w : BitVec 64)
  /-- SLOT_UNMAP (R48). -/
  | slotUnmap (n : SlotId)
  /-- SLOT_CTL_UPDATE (R45). -/
  | slotCtlUpdate (n : SlotId) (w : BitVec 64)
  /-- DEV_CLS_MIN (R47). -/
  | devClsMin (w : BitVec 64)
  /-- DEV_SLC_MODE (R75). -/
  | devSlcMode (w : BitVec 64)
  /-- DOMAIN_CHANGE (R73). -/
  | domainChange (d : Fin 8)
  /-- DEV_LOCK (R35). -/
  | devLock (w : BitVec 64)
  /-- OWNER_CREATE (R67). -/
  | ownerCreate (o : OwnerTag)
  /-- OWNER_RETIRE (R67). -/
  | ownerRetire (o : OwnerTag)
  /-- TEARDOWN (R342). -/
  | teardown (o : OwnerTag)
  /-- DEV_PWR (R358). -/
  | devPwr (w : BitVec 64)
  /-- MODE_CHANGE_DONE (R358). -/
  | modeChangeDone
  /-- PORT_BIND (R308). -/
  | portBind (port : Bool) (w : BitVec 64)
  /-- PORT_UNBIND (R308). -/
  | portUnbind (port : Bool)
  /-- REGISTER_WRITE (R5). -/
  | registerWrite (fn : Fin 17) (off : Nat) (w : BitVec 64)
  /-- SNP_DATA (R345). -/
  | snpData (hpa : Nat)
  /-- SNP_INV (R345). -/
  | snpInv (hpa : Nat)
  /-- SNP_CUR (R345). -/
  | snpCur (hpa : Nat)
  /-- HOST_RESPONSE (R346). -/
  | hostResponse (hpa : Nat) (own : Bool)
  /-- HOST_MEMORY_ACCESS (R293). -/
  | hostMemoryAccess (pa : Nat) (n : Nat) (w : Option (BitVec 512))
  /-- LINK_TRAINING (R307). -/
  | linkTraining (port : Bool) (peer : BitVec 64) (frame : BitVec 48)
  /-- TRAINING_LOSS (R307). -/
  | trainingLoss (port : Bool)
  /-- FRAME_START (R312). -/
  | frameStart (port : Bool)
  /-- FRAME_ARRIVAL (R312). -/
  | frameArrival (port : Bool) (f : LinkFrame)
  /-- POWER_SAMPLE (R359). -/
  | powerSample (tj : Nat) (power : Nat)
  /-- POWER_ON (R361). -/
  | powerOn (r : BringUp)
  /-- FIRMWARE_UPDATE (R362). -/
  | firmwareUpdate (drover : Bool) (ver : BitVec 16) (img : List (BitVec 8)) (sig : BitVec 512)
  /-- QUOTE_REQUEST (R363). -/
  | quoteRequest (n : SlotId) (tag : BitVec 32) (nonce : BitVec 256)
  /-- RESULT_LANDS (R128). -/
  | resultLands (g : Agent) (k : Nat)
  /-- PANEL_SCOREBOARD_ENGINE_WAIT (R252). -/
  | panelScoreboardEngineWait (t : TileId)
  /-- NETBC_CONTRIBUTION (R301). -/
  | netbcContribution (p : Nat) (k : Nat)
  /-- FRAME_OWNER_TABLE_WRITE (R65). -/
  | frameOwnerTableWrite (frame : Nat) (o : OwnerTag) (release : Bool)
  /-- NOTIFY (R46). -/
  | notify (fn : Fin 17) (page : Nat)
  /-- PACKET_TAKE (R38). -/
  | packetTake (n : SlotId)
  /-- PACKET_BEGIN (R42). -/
  | packetBegin (n : SlotId)
  /-- LAUNCH (R82). -/
  | launch (p : Nat)
  /-- GRAPH_EDIT (R41). -/
  | graphEdit (n : SlotId) (k : Nat)
  /-- INDIRECT (R42). -/
  | indirect (n : SlotId) (k : Nat)
  /-- COUNTER_ADD (R40). -/
  | counterAdd (n : SlotId) (k : Nat)
  /-- KILL (R41). -/
  | kill (n : SlotId) (k : Nat)
  /-- NO_OP (R40). -/
  | noOp (n : SlotId) (k : Nat)
  /-- PACKET_COMPLETION (R43). -/
  | packetCompletion (n : SlotId) (k : Nat)
  /-- PLACEMENT (R50). -/
  | placement (us : Nat)
  /-- ROUND_BOUNDARY (R50). -/
  | roundBoundary
  /-- GREEN_ROOM_SAVE (R333). -/
  | greenRoomSave (p : Nat)
  /-- RESUME (R334). -/
  | resume (p : Nat)
  /-- KILL_SEQUENCE (R338). -/
  | killSequence (p : Nat)
  /-- KILL_RECORD (R338). -/
  | killRecord (p : Nat)
  /-- LAUNCH_COMPLETION (R335). -/
  | launchCompletion (p : Nat)
  /-- PAGE_REQUEST (R154). -/
  | pageRequest (id : Nat) (giveUp : Bool)
  /-- LATE_FRAME (R353). -/
  | lateFrame (id : Nat)
  /-- APERTURE_GRANT (R364). -/
  | apertureGrant (id : Nat)
  /-- FORWARDED_CALL (R52). -/
  | forwardedCall (id : Nat)
  /-- RESERVATION_DECISION (R192). -/
  | reservationDecision (id : Nat)
deriving DecidableEq, Repr

end Sys2Proof
end

