-- ==== Sys2Proof/Machine/Bits.lean ====
section
/-!
DEFINITION. The helpers of R6 on integers and bit fields, byte order (R3), and the codes and widths of the
operand kinds (R92 to R94).
-/
namespace Sys2Proof.Machine

/-- Bits [lo + n − 1 : lo] of `v` as an unsigned integer. -/
def fld (v lo n : Nat) : Nat := v / 2 ^ lo % 2 ^ n

/-- Bit `k` of `v`. -/
def bit (v k : Nat) : Bool := v / 2 ^ k % 2 == 1

/-- SExt(v, n) of R6: the integer whose n-bit two's-complement form is v[n−1:0]. -/
def sext (n v : Nat) : Int :=
  if v % 2 ^ n < 2 ^ (n - 1) then (v % 2 ^ n : Nat) else ((v % 2 ^ n : Nat) : Int) - (2 ^ n : Nat)

/-- Bits(v, n − 1, 0) of R6 for an integer of either sign. -/
def wrap (n : Nat) (v : Int) : Nat := (v % (2 ^ n : Nat)).toNat

/-- Bits(v, 63, 0) as a register value. -/
def toWord (v : Int) : BitVec 64 := BitVec.ofInt 64 v

/-- SatS(x, n) of R6. -/
def satS (n : Nat) (x : Int) : Int :=
  if x < -(2 ^ (n - 1) : Nat) then -(2 ^ (n - 1) : Nat)
  else if x > (2 ^ (n - 1) : Nat) - 1 then (2 ^ (n - 1) : Nat) - 1 else x

/-- SatU(x, n) of R6. -/
def satU (n : Nat) (x : Int) : Int :=
  if x < 0 then 0 else if x > (2 ^ n : Nat) - 1 then (2 ^ n : Nat) - 1 else x

/-- Pow2Up(n) of R6, for n ≥ 1. -/
def pow2Up (n : Nat) : Nat := if n ≤ 1 then 1 else 2 ^ (Nat.log2 (n - 1) + 1)

/-- Wrap(o, s) of R6. -/
def wrapTo (o : Int) (s : Nat) : Nat := (o % (pow2Up s : Nat)).toNat

/-- The number of set bits among the low `n` bits. -/
def popCount : Nat → Nat → Nat
  | 0, _ => 0
  | n + 1, v => v % 2 + popCount n (v / 2)

/-- The number of bits of `v` without its leading zeros. -/
def bitLength (v : Nat) : Nat := if v = 0 then 0 else Nat.log2 v + 1

/-- Trailing zero bits among the low `n` bits; `n` when there is no set bit. -/
def trailingZeros : Nat → Nat → Nat
  | 0, _ => 0
  | n + 1, v => if v % 2 = 1 then 0 else trailingZeros n (v / 2) + 1

/-- Parity of the low `n` bits (R69). -/
def parity (n v : Nat) : Nat := popCount n v % 2

/-- The little-endian bytes of the low `n` bytes of `v` (R3). -/
def bytesOf : Nat → Nat → List (BitVec 8)
  | 0, _ => []
  | n + 1, v => BitVec.ofNat 8 v :: bytesOf n (v / 256)

/-- The integer of a little-endian byte string (R3). -/
def ofBytes : List (BitVec 8) → Nat
  | [] => 0
  | b :: bs => b.toNat + 256 * ofBytes bs

/-- Element `j` of a string of `b`-bit elements (R208). -/
def elem (b v j : Nat) : Nat := v / 2 ^ (b * j) % 2 ^ b

/-- The string of `b`-bit elements in order (R208). -/
def packElems (b : Nat) : List Nat → Nat
  | [] => 0
  | e :: es => e % 2 ^ b + 2 ^ b * packElems b es

/-- The `n` elements of `b` bits of a string, in order (R208). -/
def elemsOf (b : Nat) : Nat → Nat → List Nat
  | 0, _ => []
  | n + 1, v => v % 2 ^ b :: elemsOf b n (v / 2 ^ b)

/-- `v` with bits [lo + n − 1 : lo] replaced by the low n bits of `x`. -/
def setFld (v lo n x : Nat) : Nat :=
  v % 2 ^ lo + 2 ^ lo * (x % 2 ^ n) + 2 ^ (lo + n) * (v / 2 ^ (lo + n))

/-- The sum of fields placed at their low bits. -/
def pack : List (Nat × Nat) → Nat
  | [] => 0
  | (v, lo) :: fs => v * 2 ^ lo + pack fs

/-- The list with position `n` replaced, when there is such a position. -/
def setAt {α : Type} (l : List α) (n : Nat) (f : α → α) : List α :=
  match l, n with
  | [], _ => []
  | a :: as, 0 => f a :: as
  | a :: as, n + 1 => a :: setAt as n f

/-- The numbers 0 to n − 1 with `f` applied. -/
def tab {α : Type} (n : Nat) (f : Nat → α) : List α := (List.range n).map f

end Sys2Proof.Machine

namespace Sys2Proof

/-- The width in bits of a type (R94, R131, R176). -/
def Ty.bits : Ty → Nat
  | .i64 => 64 | .i32 => 32 | .i16 => 16 | .i8 => 8 | .f32 => 32 | .bf16 => 16 | .f16 => 16

/-- The width in bytes of an access of a type (R176). -/
def Ty.width (t : Ty) : Nat := t.bits / 8

/-- The codes 0 to 3 are integer types (R94). -/
def Ty.isInt : Ty → Bool
  | .i64 => true | .i32 => true | .i16 => true | .i8 => true | .f32 => false | .bf16 => false | .f16 => false

/-- The type code (R94). -/
def Ty.code : Ty → Nat
  | .i64 => 0 | .i32 => 1 | .i16 => 2 | .i8 => 3 | .f32 => 4 | .bf16 => 5 | .f16 => 6

/-- The code of an x or v source (R93). -/
def Src.code : Src → Nat
  | .reg n => n.val
  | .pop q => 32 + q.val

/-- The code of an m source (R93). -/
def MSrc.code : MSrc → Nat
  | .panel n => n.val
  | .pop q => 32 + q.val

/-- The code of MLD's destination (R185, R190). -/
def MDst.code : MDst → Nat
  | .ring q => q.val
  | .xreg n => n.val

/-- The rounding-mode code (R139). -/
def Rm.code : Rm → Nat
  | .rne => 0 | .rz => 1 | .ru => 2 | .rd => 3

/-- The condition code (R136). -/
def ICond.code : ICond → Nat
  | .eq => 0 | .ne => 1 | .lt => 2 | .ge => 3 | .ltu => 4 | .geu => 5

/-- The condition code (R143). -/
def FCond.code : FCond → Nat
  | .eq => 0 | .lt => 1 | .le => 2 | .un => 3 | .ne => 4

/-- The condition code of VCMP (R236). -/
def VCond.code : VCond → Nat
  | .c0 => 0 | .c1 => 1 | .c2 => 2 | .c3 => 3 | .c4 => 4 | .c5 => 5

/-- The operation code of CONDW (R151). -/
def CondwOp.code : CondwOp → Nat
  | .set => 0 | .or => 1 | .clr => 2

/-- The operation code of AMO (R185). -/
def AmoOp.code : AmoOp → Nat
  | .add => 0 | .and => 1 | .or => 2 | .xor => 3 | .min => 4 | .max => 5 | .minu => 6 | .maxu => 7 | .swap => 8

/-- The order code (R185). -/
def MemOrd.code : MemOrd → Nat
  | .rlx => 0 | .acq => 1 | .rel => 2 | .acqrel => 3

/-- The scope code (R282). -/
def Scope.code : Scope → Nat
  | .tile => 0 | .paddock => 1 | .device => 2 | .system => 3

/-- The operation code of VSCAN and NETRED (R246, R300). -/
def ScanOp.code : ScanOp → Nat
  | .add => 0 | .max => 1 | .min => 2

/-- The format code (R207). -/
def MFmt.code : MFmt → Nat
  | .bf16 => 0 | .f16 => 1 | .e4m3 => 2 | .e5m2 => 3 | .mx8e4 => 4 | .mx8e5 => 5 | .f6 => 6 | .f6m3 => 7
  | .f4 => 8 | .mxi8 => 9 | .i8 => 10 | .u8 => 11 | .i4 => 12 | .u4 => 13 | .tap8 => 14 | .tap6 => 15
  | .mxtap8 => 16 | .mxtap6 => 17 | .f32 => 18 | .i16 => 19

/-- Bits of an element of a format (R207). -/
def MFmt.bits : MFmt → Nat
  | .bf16 => 16 | .f16 => 16 | .e4m3 => 8 | .e5m2 => 8 | .mx8e4 => 8 | .mx8e5 => 8 | .f6 => 6 | .f6m3 => 6
  | .f4 => 4 | .mxi8 => 8 | .i8 => 8 | .u8 => 8 | .i4 => 4 | .u4 => 4 | .tap8 => 8 | .tap6 => 6
  | .mxtap8 => 8 | .mxtap6 => 6 | .f32 => 32 | .i16 => 16

/-- Whether a format carries block scales (R207). -/
def MFmt.scaled : MFmt → Bool
  | .mx8e4 => true | .mx8e5 => true | .f6 => true | .f6m3 => true | .f4 => true | .mxi8 => true
  | .mxtap8 => true | .mxtap6 => true
  | .bf16 => false | .f16 => false | .e4m3 => false | .e5m2 => false | .i8 => false | .u8 => false
  | .i4 => false | .u4 => false | .tap8 => false | .tap6 => false | .f32 => false | .i16 => false

/-- Whether a format is on the integer path (R207). -/
def MFmt.isInt : MFmt → Bool
  | .i8 => true | .u8 => true | .i4 => true | .u4 => true | .i16 => true
  | .mx8e4 => false | .mx8e5 => false | .f6 => false | .f6m3 => false | .f4 => false | .mxi8 => false
  | .mxtap8 => false | .mxtap6 => false | .bf16 => false | .f16 => false | .e4m3 => false | .e5m2 => false
  | .tap8 => false | .tap6 => false | .f32 => false

/-- The group size of a format (R207). -/
def MFmt.group : MFmt → Nat
  | .bf16 => 8 | .f16 => 8 | .e4m3 => 16 | .e5m2 => 16 | .mx8e4 => 32 | .mx8e5 => 32 | .f6 => 32 | .f6m3 => 32
  | .f4 => 32 | .mxi8 => 32 | .i8 => 16 | .u8 => 16 | .i4 => 16 | .u4 => 16 | .tap8 => 16 | .tap6 => 16
  | .mxtap8 => 32 | .mxtap6 => 32 | .f32 => 4 | .i16 => 8

/-- A pair that one matrix operation may take: one kind (R215). -/
def MFmt.pairOk (fa fb : MFmt) : Bool := fa.scaled == fb.scaled && fa.isInt == fb.isInt

/-- The format of a code (R207): codes 20 to 31 are reserved. -/
def mfmt? : Nat → Option MFmt
  | 0 => some .bf16 | 1 => some .f16 | 2 => some .e4m3 | 3 => some .e5m2 | 4 => some .mx8e4 | 5 => some .mx8e5
  | 6 => some .f6 | 7 => some .f6m3 | 8 => some .f4 | 9 => some .mxi8 | 10 => some .i8 | 11 => some .u8
  | 12 => some .i4 | 13 => some .u4 | 14 => some .tap8 | 15 => some .tap6 | 16 => some .mxtap8
  | 17 => some .mxtap6 | 18 => some .f32 | 19 => some .i16
  | _ => none

end Sys2Proof
end

