-- ==== Sys2Proof/Machine/Operands.lean ====
section
/-!
DEFINITION. The operand forms (R92, R93): the class of each syllable, its guard, and what each of its fields
names, in the field order d, a, b, c in which pops are counted (R97, R175). Steps of the hardware name none.
-/
namespace Sys2Proof

/-- The classes of slots: I0 and I1 decode in the I class, V0 and V1 in the V class (R90). -/
inductive SClass where
  | k | i | a | v | m | e
deriving DecidableEq, Repr

/-- What a field names. The number of a source is its field: 0 d, 1 a, 2 b, 3 c. -/
inductive Opnd where
  | xs (f : Nat) (s : Src)            -- x source
  | vs (f : Nat) (s : Src)            -- v source
  | ms (f : Nat) (s : MSrc) (n : Nat) -- m source of n operand bytes
  | ps (p : Fin 16)                   -- predicate source
  | xr (n : Fin 32)                   -- x register read without a source field (MOVHI, INSB, SYSC)
  | vr (n : Fin 32)                   -- v register kept in part (VINS, VQUANT, VCVT)
  | xd (n : Fin 32)                   -- destinations
  | vd (n : Fin 32)
  | pd (p : Fin 16)
  | pand (n : Fin 4)
  | hd (n : Fin 16)
  | wd (n : Fin 8)
  | pans (n : Fin 4)                  -- panel source
  | hs (n : Fin 16)                   -- a handle that the syllable names
  | ring (q : Fin 16)                 -- a ring named without a pop
deriving DecidableEq, Repr

/-- The class of a syllable (R100 to R105); steps of the hardware have none. -/
def Instr.slotClass : Instr → Option SClass
  | .br _ _ => some .k
  | .brp _ _ _ _ => some .k
  | .brx _ _ _ => some .k
  | .call _ _ => some .k
  | .callx _ _ _ _ => some .k
  | .ret _ _ => some .k
  | .loop _ _ _ _ => some .k
  | .loopx _ _ _ _ => some .k
  | .close _ => some .k
  | .yield _ => some .k
  | .endt _ => some .k
  | .condw _ _ _ _ => some .k
  | .token _ _ _ => some .k
  | .trap _ _ => some .k
  | .sysc _ _ => some .k
  | .eret _ => some .k
  | .csrrd _ _ _ => some .k
  | .csrwr _ _ _ _ => some .k
  | .csrset _ _ _ _ => some .k
  | .csrclr _ _ _ _ => some .k
  | .add _ _ _ _ _ => some .i
  | .addi _ _ _ _ _ => some .i
  | .sub _ _ _ _ _ => some .i
  | .mul _ _ _ _ _ => some .i
  | .mulh _ _ _ _ _ => some .i
  | .mulhu _ _ _ _ _ => some .i
  | .div _ _ _ _ _ => some .i
  | .divu _ _ _ _ _ => some .i
  | .rem _ _ _ _ _ => some .i
  | .remu _ _ _ _ _ => some .i
  | .and _ _ _ _ _ => some .i
  | .andi _ _ _ _ _ => some .i
  | .or _ _ _ _ _ => some .i
  | .ori _ _ _ _ _ => some .i
  | .xor _ _ _ _ _ => some .i
  | .xori _ _ _ _ _ => some .i
  | .shl _ _ _ _ _ => some .i
  | .shli _ _ _ _ _ => some .i
  | .shr _ _ _ _ _ => some .i
  | .shri _ _ _ _ _ => some .i
  | .sar _ _ _ _ _ => some .i
  | .sari _ _ _ _ _ => some .i
  | .clz _ _ _ _ => some .i
  | .ctz _ _ _ _ => some .i
  | .popc _ _ _ _ => some .i
  | .min _ _ _ _ _ => some .i
  | .max _ _ _ _ _ => some .i
  | .minu _ _ _ _ _ => some .i
  | .maxu _ _ _ _ _ => some .i
  | .sel _ _ _ _ _ => some .i
  | .cmp _ _ _ _ _ _ => some .i
  | .cmpi _ _ _ _ _ _ => some .i
  | .movw _ _ _ => some .i
  | .movhi _ _ _ => some .i
  | .extb _ _ _ _ _ _ => some .i
  | .insb _ _ _ _ _ => some .i
  | .fadd _ _ _ _ _ _ => some .i
  | .fsub _ _ _ _ _ _ => some .i
  | .fmul _ _ _ _ _ _ => some .i
  | .ffma _ _ _ _ _ _ _ => some .i
  | .fdiv _ _ _ _ _ _ => some .i
  | .fsqrt _ _ _ _ _ => some .i
  | .fcvt _ _ _ _ _ _ _ => some .i
  | .fcmp _ _ _ _ _ _ => some .i
  | .plog _ _ _ _ _ => some .i
  | .pmov _ _ => some .i
  | .lds _ _ _ _ _ _ _ => some .a
  | .sts _ _ _ _ _ _ => some .a
  | .ldv _ _ _ _ _ => some .a
  | .stv _ _ _ _ _ => some .a
  | .ldvs _ _ _ _ _ _ => some .a
  | .gath _ _ _ _ _ => some .a
  | .scat _ _ _ _ _ => some .a
  | .winset _ _ _ _ => some .a
  | .ringset _ _ _ _ _ => some .a
  | .radv _ _ _ _ => some .a
  | .rrel _ _ _ _ => some .a
  | .xlt _ _ _ => some .a
  | .hrel _ _ => some .a
  | .hinfo _ _ _ _ => some .a
  | .mld _ _ _ _ _ _ _ => some .a
  | .mldv _ _ _ _ _ => some .a
  | .mgath _ _ _ _ _ _ => some .a
  | .mst _ _ _ _ _ _ => some .a
  | .mstv _ _ _ _ _ => some .a
  | .amo _ _ _ _ _ _ _ _ _ => some .a
  | .amocas _ _ _ _ _ _ _ _ _ => some .a
  | .sqld _ _ _ _ _ => some .a
  | .sqpush _ _ _ _ => some .a
  | .disc _ _ _ _ => some .a
  | .vadd _ _ _ _ _ _ _ _ => some .v
  | .vsub _ _ _ _ _ _ _ _ => some .v
  | .vmul _ _ _ _ _ _ _ _ => some .v
  | .vfma _ _ _ _ _ _ _ _ _ => some .v
  | .vfms _ _ _ _ _ _ _ _ _ => some .v
  | .vmin _ _ _ _ _ _ => some .v
  | .vmax _ _ _ _ _ _ => some .v
  | .vabs _ _ _ _ _ => some .v
  | .vneg _ _ _ _ _ => some .v
  | .vand _ _ _ _ _ => some .v
  | .vor _ _ _ _ _ => some .v
  | .vxor _ _ _ _ _ => some .v
  | .vshl _ _ _ _ _ => some .v
  | .vshr _ _ _ _ _ => some .v
  | .vsar _ _ _ _ _ => some .v
  | .vcmp _ _ _ _ _ _ => some .v
  | .vsel _ _ _ _ _ _ => some .v
  | .vcvt _ _ _ _ _ _ _ _ _ _ => some .v
  | .vquant _ _ _ _ _ _ _ _ => some .v
  | .vdeq _ _ _ _ _ _ _ _ => some .v
  | .vrcp _ _ _ _ _ _ => some .v
  | .vrsq _ _ _ _ _ _ => some .v
  | .vexp2 _ _ _ _ _ _ => some .v
  | .vlog2 _ _ _ _ _ _ => some .v
  | .vrsum _ _ _ _ _ _ _ => some .v
  | .vrmax _ _ _ _ _ => some .v
  | .vrmin _ _ _ _ _ => some .v
  | .vscan _ _ _ _ _ _ _ _ => some .v
  | .vperm _ _ _ _ _ => some .v
  | .vsplat _ _ _ _ => some .v
  | .vins _ _ _ _ _ => some .v
  | .vext _ _ _ _ _ _ => some .v
  | .viota _ _ _ _ _ => some .v
  | .vpart _ _ _ _ _ _ _ _ => some .v
  | .vcomp _ _ _ _ _ _ => some .v
  | .vexpd _ _ _ _ _ => some .v
  | .vpcnt _ _ _ _ => some .v
  | .vmovp _ _ _ => some .v
  | .vmulh _ _ _ _ _ _ => some .v
  | .vclamp _ _ _ _ _ _ _ => some .v
  | .mma _ _ _ _ _ _ _ _ _ => some .m
  | .mmas _ _ _ _ _ _ _ _ _ _ => some .m
  | .mzero _ _ => some .m
  | .mldp _ _ _ _ _ _ _ => some .m
  | .mstp _ _ _ _ _ _ _ _ _ => some .m
  | .mrow _ _ _ _ => some .m
  | .mrput _ _ _ _ => some .m
  | .mtrn _ _ _ => some .m
  | .mops _ _ => some .m
  | .mwin _ _ => some .m
  | .mflg _ _ => some .m
  | .mfclr _ _ => some .m
  | .mscl _ _ _ _ _ => some .m
  | .mexp _ _ _ _ _ => some .m
  | .mmax _ _ _ _ => some .m
  | .seq _ _ _ _ => some .e
  | .seqgo _ _ _ => some .e
  | .cpy _ _ _ _ => some .e
  | .cpyr _ _ _ _ => some .e
  | .mcast _ _ _ _ => some .e
  | .cntadd _ _ _ _ => some .e
  | .cntwait _ _ _ => some .e
  | .cntrd _ _ _ _ _ => some .e
  | .qfence _ _ => some .e
  | .drain _ => some .e
  | .fence _ _ => some .e
  | .bar _ _ _ _ => some .e
  | .scene _ => some .e
  | .netred _ _ _ _ _ _ _ _ _ => some .e
  | .netbc _ _ _ _ _ _ _ => some .e
  | .redopen _ _ _ _ _ _ => some .e
  | .redclose _ _ _ => some .e
  | .flkadd _ _ _ _ => some .e
  | .flkdel _ _ _ => some .e
  | .pgcast _ _ _ _ => some .e
  | .merge _ _ _ _ _ => some .e
  | .mrgdrnOpen _ _ _ => some .e
  | .mrgdrnDrain _ _ _ => some .e
  | .mrgdrnFin _ _ _ => some .e
  | .rsv _ _ _ _ => some .e
  | .unrsv _ _ _ _ => some .e
  | .lksendData _ _ _ _ _ _ _ _ _ => some .e
  | .lksendRst _ _ _ _ => some .e
  | .lkrecvPost _ _ _ _ _ _ _ _ _ => some .e
  | .lkrecvRst _ _ _ _ => some .e
  | .lkrecvFrame _ _ _ => some .e
  | .condv _ _ _ => some .e
  | .cpywait _ _ => some .e
  | _ => none

/-- The guard of a syllable (R96); steps of the hardware have none. -/
def Instr.guard? : Instr → Option Guard
  | .br g _ => some g
  | .brp g _ _ _ => some g
  | .brx g _ _ => some g
  | .call g _ => some g
  | .callx g _ _ _ => some g
  | .ret g _ => some g
  | .loop g _ _ _ => some g
  | .loopx g _ _ _ => some g
  | .close g => some g
  | .yield g => some g
  | .endt g => some g
  | .condw g _ _ _ => some g
  | .token g _ _ => some g
  | .trap g _ => some g
  | .sysc g _ => some g
  | .eret g => some g
  | .csrrd g _ _ => some g
  | .csrwr g _ _ _ => some g
  | .csrset g _ _ _ => some g
  | .csrclr g _ _ _ => some g
  | .add g _ _ _ _ => some g
  | .addi g _ _ _ _ => some g
  | .sub g _ _ _ _ => some g
  | .mul g _ _ _ _ => some g
  | .mulh g _ _ _ _ => some g
  | .mulhu g _ _ _ _ => some g
  | .div g _ _ _ _ => some g
  | .divu g _ _ _ _ => some g
  | .rem g _ _ _ _ => some g
  | .remu g _ _ _ _ => some g
  | .and g _ _ _ _ => some g
  | .andi g _ _ _ _ => some g
  | .or g _ _ _ _ => some g
  | .ori g _ _ _ _ => some g
  | .xor g _ _ _ _ => some g
  | .xori g _ _ _ _ => some g
  | .shl g _ _ _ _ => some g
  | .shli g _ _ _ _ => some g
  | .shr g _ _ _ _ => some g
  | .shri g _ _ _ _ => some g
  | .sar g _ _ _ _ => some g
  | .sari g _ _ _ _ => some g
  | .clz g _ _ _ => some g
  | .ctz g _ _ _ => some g
  | .popc g _ _ _ => some g
  | .min g _ _ _ _ => some g
  | .max g _ _ _ _ => some g
  | .minu g _ _ _ _ => some g
  | .maxu g _ _ _ _ => some g
  | .sel g _ _ _ _ => some g
  | .cmp g _ _ _ _ _ => some g
  | .cmpi g _ _ _ _ _ => some g
  | .movw g _ _ => some g
  | .movhi g _ _ => some g
  | .extb g _ _ _ _ _ => some g
  | .insb g _ _ _ _ => some g
  | .fadd g _ _ _ _ _ => some g
  | .fsub g _ _ _ _ _ => some g
  | .fmul g _ _ _ _ _ => some g
  | .ffma g _ _ _ _ _ _ => some g
  | .fdiv g _ _ _ _ _ => some g
  | .fsqrt g _ _ _ _ => some g
  | .fcvt g _ _ _ _ _ _ => some g
  | .fcmp g _ _ _ _ _ => some g
  | .plog g _ _ _ _ => some g
  | .pmov g _ => some g
  | .lds g _ _ _ _ _ _ => some g
  | .sts g _ _ _ _ _ => some g
  | .ldv g _ _ _ _ => some g
  | .stv g _ _ _ _ => some g
  | .ldvs g _ _ _ _ _ => some g
  | .gath g _ _ _ _ => some g
  | .scat g _ _ _ _ => some g
  | .winset g _ _ _ => some g
  | .ringset g _ _ _ _ => some g
  | .radv g _ _ _ => some g
  | .rrel g _ _ _ => some g
  | .xlt g _ _ => some g
  | .hrel g _ => some g
  | .hinfo g _ _ _ => some g
  | .mld g _ _ _ _ _ _ => some g
  | .mldv g _ _ _ _ => some g
  | .mgath g _ _ _ _ _ => some g
  | .mst g _ _ _ _ _ => some g
  | .mstv g _ _ _ _ => some g
  | .amo g _ _ _ _ _ _ _ _ => some g
  | .amocas g _ _ _ _ _ _ _ _ => some g
  | .sqld g _ _ _ _ => some g
  | .sqpush g _ _ _ => some g
  | .disc g _ _ _ => some g
  | .vadd g _ _ _ _ _ _ _ => some g
  | .vsub g _ _ _ _ _ _ _ => some g
  | .vmul g _ _ _ _ _ _ _ => some g
  | .vfma g _ _ _ _ _ _ _ _ => some g
  | .vfms g _ _ _ _ _ _ _ _ => some g
  | .vmin g _ _ _ _ _ => some g
  | .vmax g _ _ _ _ _ => some g
  | .vabs g _ _ _ _ => some g
  | .vneg g _ _ _ _ => some g
  | .vand g _ _ _ _ => some g
  | .vor g _ _ _ _ => some g
  | .vxor g _ _ _ _ => some g
  | .vshl g _ _ _ _ => some g
  | .vshr g _ _ _ _ => some g
  | .vsar g _ _ _ _ => some g
  | .vcmp g _ _ _ _ _ => some g
  | .vsel g _ _ _ _ _ => some g
  | .vcvt g _ _ _ _ _ _ _ _ _ => some g
  | .vquant g _ _ _ _ _ _ _ => some g
  | .vdeq g _ _ _ _ _ _ _ => some g
  | .vrcp g _ _ _ _ _ => some g
  | .vrsq g _ _ _ _ _ => some g
  | .vexp2 g _ _ _ _ _ => some g
  | .vlog2 g _ _ _ _ _ => some g
  | .vrsum g _ _ _ _ _ _ => some g
  | .vrmax g _ _ _ _ => some g
  | .vrmin g _ _ _ _ => some g
  | .vscan g _ _ _ _ _ _ _ => some g
  | .vperm g _ _ _ _ => some g
  | .vsplat g _ _ _ => some g
  | .vins g _ _ _ _ => some g
  | .vext g _ _ _ _ _ => some g
  | .viota g _ _ _ _ => some g
  | .vpart g _ _ _ _ _ _ _ => some g
  | .vcomp g _ _ _ _ _ => some g
  | .vexpd g _ _ _ _ => some g
  | .vpcnt g _ _ _ => some g
  | .vmovp g _ _ => some g
  | .vmulh g _ _ _ _ _ => some g
  | .vclamp g _ _ _ _ _ _ => some g
  | .mma g _ _ _ _ _ _ _ _ => some g
  | .mmas g _ _ _ _ _ _ _ _ _ => some g
  | .mzero g _ => some g
  | .mldp g _ _ _ _ _ _ => some g
  | .mstp g _ _ _ _ _ _ _ _ => some g
  | .mrow g _ _ _ => some g
  | .mrput g _ _ _ => some g
  | .mtrn g _ _ => some g
  | .mops g _ => some g
  | .mwin g _ => some g
  | .mflg g _ => some g
  | .mfclr g _ => some g
  | .mscl g _ _ _ _ => some g
  | .mexp g _ _ _ _ => some g
  | .mmax g _ _ _ => some g
  | .seq g _ _ _ => some g
  | .seqgo g _ _ => some g
  | .cpy g _ _ _ => some g
  | .cpyr g _ _ _ => some g
  | .mcast g _ _ _ => some g
  | .cntadd g _ _ _ => some g
  | .cntwait g _ _ => some g
  | .cntrd g _ _ _ _ => some g
  | .qfence g _ => some g
  | .drain g => some g
  | .fence g _ => some g
  | .bar g _ _ _ => some g
  | .scene g => some g
  | .netred g _ _ _ _ _ _ _ _ => some g
  | .netbc g _ _ _ _ _ _ => some g
  | .redopen g _ _ _ _ _ => some g
  | .redclose g _ _ => some g
  | .flkadd g _ _ _ => some g
  | .flkdel g _ _ => some g
  | .pgcast g _ _ _ => some g
  | .merge g _ _ _ _ => some g
  | .mrgdrnOpen g _ _ => some g
  | .mrgdrnDrain g _ _ => some g
  | .mrgdrnFin g _ _ => some g
  | .rsv g _ _ _ => some g
  | .unrsv g _ _ _ => some g
  | .lksendData g _ _ _ _ _ _ _ _ => some g
  | .lksendRst g _ _ _ => some g
  | .lkrecvPost g _ _ _ _ _ _ _ _ => some g
  | .lkrecvRst g _ _ _ => some g
  | .lkrecvFrame g _ _ => some g
  | .condv g _ _ => some g
  | .cpywait g _ => some g
  | _ => none

/-- What the fields of a syllable name, in the order d, a, b, c. -/
def Instr.operands : Instr → List Opnd
  | .br _ _ => []
  | .brp _ _ _ p => [.ps p]
  | .brx _ a _ => [.xs 1 a]
  | .call _ _ => [.xd 31]
  | .callx _ d a _ => [.xd d, .xs 1 a]
  | .ret _ a => [.xs 1 a]
  | .loop _ _ _ _ => []
  | .loopx _ a _ _ => [.xs 1 a]
  | .close _ => []
  | .yield _ => []
  | .endt _ => []
  | .condw _ a _ _ => [.xs 1 a]
  | .token _ a b => [.xs 1 a, .xs 2 b]
  | .trap _ _ => []
  | .sysc _ _ => [.xr 1, .xr 2, .xr 3, .xr 4, .xr 5, .xr 6, .xd 1]
  | .eret _ => []
  | .csrrd _ d _ => [.xd d]
  | .csrwr _ d a _ => [.xd d, .xs 1 a]
  | .csrset _ d a _ => [.xd d, .xs 1 a]
  | .csrclr _ d a _ => [.xd d, .xs 1 a]
  | .add _ _ d a b => [.xd d, .xs 1 a, .xs 2 b]
  | .addi _ _ d a _ => [.xd d, .xs 1 a]
  | .sub _ _ d a b => [.xd d, .xs 1 a, .xs 2 b]
  | .mul _ _ d a b => [.xd d, .xs 1 a, .xs 2 b]
  | .mulh _ _ d a b => [.xd d, .xs 1 a, .xs 2 b]
  | .mulhu _ _ d a b => [.xd d, .xs 1 a, .xs 2 b]
  | .div _ _ d a b => [.xd d, .xs 1 a, .xs 2 b]
  | .divu _ _ d a b => [.xd d, .xs 1 a, .xs 2 b]
  | .rem _ _ d a b => [.xd d, .xs 1 a, .xs 2 b]
  | .remu _ _ d a b => [.xd d, .xs 1 a, .xs 2 b]
  | .and _ _ d a b => [.xd d, .xs 1 a, .xs 2 b]
  | .andi _ _ d a _ => [.xd d, .xs 1 a]
  | .or _ _ d a b => [.xd d, .xs 1 a, .xs 2 b]
  | .ori _ _ d a _ => [.xd d, .xs 1 a]
  | .xor _ _ d a b => [.xd d, .xs 1 a, .xs 2 b]
  | .xori _ _ d a _ => [.xd d, .xs 1 a]
  | .shl _ _ d a b => [.xd d, .xs 1 a, .xs 2 b]
  | .shli _ _ d a _ => [.xd d, .xs 1 a]
  | .shr _ _ d a b => [.xd d, .xs 1 a, .xs 2 b]
  | .shri _ _ d a _ => [.xd d, .xs 1 a]
  | .sar _ _ d a b => [.xd d, .xs 1 a, .xs 2 b]
  | .sari _ _ d a _ => [.xd d, .xs 1 a]
  | .clz _ _ d a => [.xd d, .xs 1 a]
  | .ctz _ _ d a => [.xd d, .xs 1 a]
  | .popc _ _ d a => [.xd d, .xs 1 a]
  | .min _ _ d a b => [.xd d, .xs 1 a, .xs 2 b]
  | .max _ _ d a b => [.xd d, .xs 1 a, .xs 2 b]
  | .minu _ _ d a b => [.xd d, .xs 1 a, .xs 2 b]
  | .maxu _ _ d a b => [.xd d, .xs 1 a, .xs 2 b]
  | .sel _ d a b c => [.xd d, .xs 1 a, .xs 2 b, .ps c]
  | .cmp _ _ d a b _ => [.pd d, .xs 1 a, .xs 2 b]
  | .cmpi _ _ d a _ _ => [.pd d, .xs 1 a]
  | .movw _ d _ => [.xd d]
  | .movhi _ d _ => [.xr d, .xd d]
  | .extb _ d a _ _ _ => [.xd d, .xs 1 a]
  | .insb _ d a _ _ => [.xr d, .xd d, .xs 1 a]
  | .fadd _ _ d a b _ => [.xd d, .xs 1 a, .xs 2 b]
  | .fsub _ _ d a b _ => [.xd d, .xs 1 a, .xs 2 b]
  | .fmul _ _ d a b _ => [.xd d, .xs 1 a, .xs 2 b]
  | .ffma _ _ d a b c _ => [.xd d, .xs 1 a, .xs 2 b, .xs 3 c]
  | .fdiv _ _ d a b _ => [.xd d, .xs 1 a, .xs 2 b]
  | .fsqrt _ _ d a _ => [.xd d, .xs 1 a]
  | .fcvt _ _ d a _ _ _ => [.xd d, .xs 1 a]
  | .fcmp _ _ d a b _ => [.pd d, .xs 1 a, .xs 2 b]
  | .plog _ d a b _ => [.pd d, .ps a, .ps b]
  | .pmov _ (.fx d a) => [.pd d, .xs 1 a]
  | .pmov _ (.tx d a) => [.xd d, .ps a]
  | .pmov _ (.pp d a) => [.pd d, .ps a]
  | .lds _ _ d a _ _ _ => [.xd d, .xs 1 a]
  | .sts _ _ d a _ _ => [.xs 0 d, .xs 1 a]
  | .ldv _ d a _ _ => [.vd d, .xs 1 a]
  | .stv _ d a _ _ => [.vs 0 d, .xs 1 a]
  | .ldvs _ _ d a b _ => [.vd d, .xs 1 a, .xs 2 b]
  | .gath _ d a b _ => [.vd d, .vs 1 a, .xs 2 b]
  | .scat _ d a b _ => [.vs 0 d, .vs 1 a, .xs 2 b]
  | .winset _ d a b => [.wd d, .xs 1 a, .xs 2 b]
  | .ringset _ d a _ _ => [.ring d, .xs 1 a]
  | .radv _ d a _ => [.ring d, .xs 1 a]
  | .rrel _ d a _ => [.ring d, .xs 1 a]
  | .xlt _ d a => [.hd d, .hs d, .xs 1 a]
  | .hrel _ d => [.hd d, .hs d]
  | .hinfo _ d a _ => [.xd d, .hs a]
  | .mld _ _ (.ring d) a h _ _ => [.ring d, .xs 1 a, .hs h]
  | .mld _ _ (.xreg d) a _ _ _ => [.xd d, .xs 1 a]
  | .mldv _ d a h _ => [.ring d, .xs 1 a, .hs h]
  | .mgath _ _ d a b c => [.ring d, .vs 1 a, .xs 2 b, .xd c]
  | .mst _ _ d a h _ => [.xs 0 d, .xs 1 a, .hs h]
  | .mstv _ d a h _ => [.vs 0 d, .xs 1 a, .hs h]
  | .amo _ _ d a b _ _ _ h => [.ring d, .xs 1 a, .xs 2 b, .hs h]
  | .amocas _ _ d a b c _ _ h => [.ring d, .xs 1 a, .xs 2 b, .xs 3 c, .hs h]
  | .sqld _ _ a _ h => [.xs 1 a, .hs h]
  | .sqpush _ _ a _ => [.vs 1 a]
  | .disc _ a b h => [.xs 1 a, .xs 2 b, .hs h]
  | .vadd _ _ d a b _ _ _ => [.vd d, .vs 1 a, .vs 2 b]
  | .vsub _ _ d a b _ _ _ => [.vd d, .vs 1 a, .vs 2 b]
  | .vmul _ _ d a b _ _ _ => [.vd d, .vs 1 a, .vs 2 b]
  | .vfma _ _ d a b c _ _ _ => [.vd d, .vs 1 a, .vs 2 b, .vs 3 c]
  | .vfms _ _ d a b c _ _ _ => [.vd d, .vs 1 a, .vs 2 b, .vs 3 c]
  | .vmin _ _ d a b _ => [.vd d, .vs 1 a, .vs 2 b]
  | .vmax _ _ d a b _ => [.vd d, .vs 1 a, .vs 2 b]
  | .vabs _ _ d a _ => [.vd d, .vs 1 a]
  | .vneg _ _ d a _ => [.vd d, .vs 1 a]
  | .vand _ _ d a b => [.vd d, .vs 1 a, .vs 2 b]
  | .vor _ _ d a b => [.vd d, .vs 1 a, .vs 2 b]
  | .vxor _ _ d a b => [.vd d, .vs 1 a, .vs 2 b]
  | .vshl _ _ d a (.lanes b) => [.vd d, .vs 1 a, .vs 2 b]
  | .vshl _ _ d a (.imm _) => [.vd d, .vs 1 a]
  | .vshr _ _ d a (.lanes b) => [.vd d, .vs 1 a, .vs 2 b]
  | .vshr _ _ d a (.imm _) => [.vd d, .vs 1 a]
  | .vsar _ _ d a (.lanes b) => [.vd d, .vs 1 a, .vs 2 b]
  | .vsar _ _ d a (.imm _) => [.vd d, .vs 1 a]
  | .vcmp _ _ d a b _ => [.vd d, .vs 1 a, .vs 2 b]
  | .vsel _ _ d a b c => [.vd d, .vs 1 a, .vs 2 b, .vs 3 c]
  | .vcvt _ _ d a _ _ _ _ _ _ => [.vr d, .vd d, .vs 1 a]
  | .vquant _ _ d a c _ _ _ => [.vr d, .vd d, .vs 1 a, .xd c]
  | .vdeq _ _ d a b _ _ _ => [.vd d, .vs 1 a, .xs 2 b]
  | .vrcp _ _ d a _ _ => [.vd d, .vs 1 a]
  | .vrsq _ _ d a _ _ => [.vd d, .vs 1 a]
  | .vexp2 _ _ d a _ _ => [.vd d, .vs 1 a]
  | .vlog2 _ _ d a _ _ => [.vd d, .vs 1 a]
  | .vrsum _ _ d a _ _ _ => [.vd d, .vs 1 a]
  | .vrmax _ _ d a _ => [.vd d, .vs 1 a]
  | .vrmin _ _ d a _ => [.vd d, .vs 1 a]
  | .vscan _ _ d a _ _ _ _ => [.vd d, .vs 1 a]
  | .vperm _ _ d a b => [.vd d, .vs 1 a, .vs 2 b]
  | .vsplat _ _ d a => [.vd d, .xs 1 a]
  | .vins _ _ d a b => [.vr d, .vd d, .xs 1 a, .xs 2 b]
  | .vext _ _ d a b _ => [.xd d, .vs 1 a, .xs 2 b]
  | .viota _ _ d a b => [.vd d, .xs 1 a, .xs 2 b]
  | .vpart _ _ d a b c _ _ => [.vd d, .vs 1 a, .xs 2 b, .xd c]
  | .vcomp _ _ d a b c => [.vd d, .vs 1 a, .vs 2 b, .xd c]
  | .vexpd _ _ d a b => [.vd d, .vs 1 a, .vs 2 b]
  | .vpcnt _ _ d a => [.xd d, .vs 1 a]
  | .vmovp _ _ (.any d a) => [.pd d, .vs 1 a]
  | .vmovp _ _ (.all d a) => [.pd d, .vs 1 a]
  | .vmovp _ _ (.sp d a) => [.vd d, .ps a]
  | .vmulh _ _ d a b _ => [.vd d, .vs 1 a, .vs 2 b]
  | .vclamp _ _ d a b c _ => [.vd d, .vs 1 a, .vs 2 b, .vs 3 c]
  | .mma _ d a b c fa fb kb _ =>
    [.pand d, .ms 1 a (32 * (32 * (kb.toNat + 1)) * fa.bits / 8), .ms 2 b (32 * (32 * (kb.toNat + 1)) * fb.bits / 8), .xs 3 c]
  | .mmas _ d a b c fa fb kb _ n8 =>
    [.pand d, .ms 1 a (32 * (32 * (kb.toNat + 1)) * fa.bits / 8),
     .ms 2 b (32 * ((kb.toNat + 1) * (if n8 then 8 else 16)) * fb.bits / 8), .ms 3 c (128 * (kb.toNat + 1))]
  | .mzero _ d => [.pand d]
  | .mldp _ _ d a _ c _ => [.pand d, .xs 1 a, .xs 3 c]
  | .mstp _ _ _ a b c _ _ _ => [.xs 1 a, .pans b, .xs 3 c]
  | .mrow _ d a b => [.vd d, .pans a, .xs 2 b]
  | .mrput _ d a b => [.pand d, .vs 1 a, .xs 2 b]
  | .mtrn _ d a => [.pand d, .pans a]
  | .mops _ _ => []
  | .mwin _ _ => []
  | .mflg _ (.row d a b) => [.xd d, .pans a, .xs 2 b]
  | .mflg _ (.any d a) => [.pd d, .pans a]
  | .mfclr _ d => [.pand d]
  | .mscl _ d a b _ => [.pand d, .pans a, .vs 2 b]
  | .mexp _ d a b c => [.pand d, .pans a, .vs 2 b, .xs 3 c]
  | .mmax _ d a b => [.vd d, .pans a, .vs 2 b]
  | .seq _ _ a _ => [.xs 1 a]
  | .seqgo _ a _ => [.xs 1 a]
  | .cpy _ _ a _ => [.xs 1 a]
  | .cpyr _ _ a _ => [.xs 1 a]
  | .mcast _ _ a _ => [.xs 1 a]
  | .cntadd _ a _ _ => [.xs 1 a]
  | .cntwait _ a _ => [.xs 1 a]
  | .cntrd _ d a _ _ => [.xd d, .xs 1 a]
  | .qfence _ _ => []
  | .drain _ => []
  | .fence _ _ => []
  | .bar _ _ _ _ => []
  | .scene _ => []
  | .netred _ _ d a b _ _ _ _ => [.vd d, .vs 1 a, .xs 2 b]
  | .netbc _ _ d a b c _ => [.vd d, .vs 1 a, .xs 2 b, .xs 3 c]
  | .redopen _ d a _ _ _ => [.xd d, .xs 1 a]
  | .redclose _ d a => [.xd d, .xs 1 a]
  | .flkadd _ a _ _ => [.xs 1 a]
  | .flkdel _ a _ => [.xs 1 a]
  | .pgcast _ _ a _ => [.xs 1 a]
  | .merge _ a b c _ => [.vs 1 a, .xs 2 b, .xs 3 c]
  | .mrgdrnOpen _ a _ => [.xs 1 a]
  | .mrgdrnDrain _ a _ => [.xs 1 a]
  | .mrgdrnFin _ d _ => [.vd d]
  | .rsv _ d a _ => [.xd d, .xs 1 a]
  | .unrsv _ d a _ => [.xd d, .xs 1 a]
  | .lksendData _ _ a _ _ _ _ _ _ => [.xs 1 a]
  | .lksendRst _ a _ _ => [.xs 1 a]
  | .lkrecvPost _ _ a _ _ _ _ _ _ => [.xs 1 a]
  | .lkrecvRst _ a _ _ => [.xs 1 a]
  | .lkrecvFrame _ d _ => [.xd d]
  | .condv _ a _ => [.ps a]
  | .cpywait _ _ => []
  | _ => []

end Sys2Proof
end

