-- ==== Sys2Proof/Machine/Formation.lean ====
section
/-!
DEFINITION. What makes a syllable fail to decode beyond the codes of its operand kinds (R95): the type codes,
modifier values and combinations that each instruction's description reserves, and the limits of a drover
thread (R106, R157, R190).
-/
namespace Sys2Proof

/-- The CSR numbers of a context (R127, R224, R317). -/
def csrDefined (k : Nat) : Bool :=
  k ≤ 4 || k == 8 || (0x10 ≤ k && k ≤ 0x13) || (0x20 ≤ k && k ≤ 0x25) || k == 0x28 || k == 0x30 || k == 0x31 ||
  (0x40 ≤ k && k ≤ 0x7F) || (0x100 ≤ k && k ≤ 0x108) || (0x10A ≤ k && k ≤ 0x10D) || (0x200 ≤ k && k ≤ 0x204)

/-- The CSR numbers of a drover thread: those of R157, and the trap registers of R327. -/
def csrDefinedDrover (k : Nat) : Bool :=
  k ≤ 1 || k == 0x30 || (0x100 ≤ k && k ≤ 0x108) || (0x10A ≤ k && k ≤ 0x10D)

/-- The lane types of the V class: code 0 is reserved (R226). -/
def Ty.isLane : Ty → Bool
  | .i64 => false | .i32 => true | .i16 => true | .i8 => true | .f32 => true | .bf16 => true | .f16 => true

/-- Types 1 to 3 (R231). -/
def Ty.isIntLane (t : Ty) : Bool := t.isInt && t.isLane

/-- rm, sat and u against the lane type (R228): rounding and saturation belong to their own lane kinds. -/
def laneMods (t : Ty) (rm : Rm) (sat u : Bool) : Bool :=
  t.isLane && (if t.isInt then rm == .rne else !sat && !u)

/-- u without sat would change nothing in VADD, VSUB, VMUL, VFMA and VFMS (R228). -/
def laneArith (t : Ty) (rm : Rm) (sat u : Bool) : Bool := laneMods t rm sat u && (sat || !u)

/-- A chunk that both sides of a conversion hold (R239): `nb` elements on the larger side, `m` moved. -/
def partOk (part nb m : Nat) : Bool := (part + 1) * m ≤ nb

/-- Elements of a lane type in a vector register (R223). -/
def Ty.lanes (t : Ty) : Nat := 2048 / t.bits

/-- Elements of a packed format in a vector register (R239). -/
def MFmt.packed (f : MFmt) : Nat := 2048 / f.bits

/-- The type of a code (R94): 7 is no type of its own. -/
def ty? : Nat → Option Ty
  | 0 => some .i64 | 1 => some .i32 | 2 => some .i16 | 3 => some .i8 | 4 => some .f32 | 5 => some .bf16
  | 6 => some .f16
  | _ => none

/-- The scaled formats that VQUANT and VDEQ take, codes 4 to 9, 16 and 17 (R241). -/
def quantFmt (f : MFmt) : Bool := f.scaled

/-- What VCVT accepts (R240). With u an integer-to-float conversion is not accepted, as R240's list has it; its table has u
select unsigned there (log 15). -/
def vcvtOk (t frm fmt : Nat) (rm : Rm) (sat u : Bool) (part : Nat) : Bool :=
  match ty? t, ty? frm with
  | some td, some ts =>
    td.isLane && ts.isLane && td != ts && fmt == 0 && (!(sat || u) || (td.isInt && ts.isInt)) &&
    (!(td.isInt && ts.isInt) || rm == .rne) && partOk part (max td.lanes ts.lanes) (min td.lanes ts.lanes)
  | none, some ts => t == 7 && ts.isLane && packedOk ts
  | some td, none => frm == 7 && td.isLane && packedOk td
  | none, none => false
where
  /-- One side packed: the formats 2, 3 and 10 to 15; a packed float meets a float lane type only; u is the
  packed format's own business; sat belongs to integer to integer. -/
  packedOk (l : Ty) : Bool :=
    match mfmt? fmt with
    | none => false
    | some f =>
      (fmt == 2 || fmt == 3 || (10 ≤ fmt && fmt ≤ 15)) && (f.isInt || !l.isInt) && !u &&
      (if f.isInt && l.isInt then rm == .rne else !sat) &&
      partOk part (max f.packed l.lanes) (min f.packed l.lanes)

/-- The sequence that MOPS names: its length, and no code 3 and no step at or beyond it (R262). -/
def mopsOk (imm : Nat) : Bool :=
  let len := imm % 8 + 1
  imm < 2 ^ 19 && (List.range 8).all fun k =>
    let st := imm / 2 ^ (2 * k + 3) % 4
    if k < len then st != 3 else st == 0

/-- A panel may be an m source when its vectors fit a panel row (R254). -/
def msrcOk (m : MSrc) (l : Nat) : Bool :=
  match m with
  | .panel _ => l ≤ 128
  | .pop _ => true

/-- Whether a source pops a ring: on a drover thread such codes are reserved (R106). -/
def Opnd.pops : Opnd → Bool
  | .xs _ (.pop _) => true
  | .vs _ (.pop _) => true
  | .ms _ (.pop _) _ => true
  | _ => false

/-- What a drover thread decodes: K and I, and of A only MLD and MST; no ENDT, CONDW, TOKEN or SYSC; no ring
pops; handle field 0 (R106, R157, R190). -/
def Instr.droverOk (i : Instr) : Bool :=
  !(i.operands.any Opnd.pops) &&
  match i with
  | .endt _ => false
  | .condw _ _ _ _ => false
  | .token _ _ _ => false
  | .sysc _ _ => false
  | .csrrd _ _ k => csrDefinedDrover k.toNat
  | .csrwr _ _ _ k => csrDefinedDrover k.toNat
  | .csrset _ _ _ k => csrDefinedDrover k.toNat
  | .csrclr _ _ _ k => csrDefinedDrover k.toNat
  | .mld _ _ (.xreg _) _ h _ _ => h == 0
  | .mld _ _ (.ring _) _ _ _ _ => false
  | .mst _ _ _ _ h _ => h == 0
  | i => i.slotClass == some .k || i.slotClass == some .i

/-- The values that the description of an instruction accepts (R95). -/
def Instr.accepted : Instr → Bool
  | .loop _ _ stages _ => stages.toNat ≤ 8
  | .loopx _ _ _ stages => stages.toNat ≤ 8
  | .csrrd _ _ k => csrDefined k.toNat
  | .csrwr _ _ _ k => csrDefined k.toNat
  | .csrset _ _ _ k => csrDefined k.toNat
  | .csrclr _ _ _ k => csrDefined k.toNat
  | .add _ t _ _ _ => t.isInt
  | .addi _ t _ _ _ => t.isInt
  | .sub _ t _ _ _ => t.isInt
  | .mul _ t _ _ _ => t.isInt
  | .mulh _ t _ _ _ => t.isInt
  | .mulhu _ t _ _ _ => t.isInt
  | .div _ t _ _ _ => t.isInt
  | .divu _ t _ _ _ => t.isInt
  | .rem _ t _ _ _ => t.isInt
  | .remu _ t _ _ _ => t.isInt
  | .and _ t _ _ _ => t.isInt
  | .andi _ t _ _ _ => t.isInt
  | .or _ t _ _ _ => t.isInt
  | .ori _ t _ _ _ => t.isInt
  | .xor _ t _ _ _ => t.isInt
  | .xori _ t _ _ _ => t.isInt
  | .shl _ t _ _ _ => t.isInt
  | .shli _ t _ _ imm => t.isInt && imm.toNat < t.bits
  | .shr _ t _ _ _ => t.isInt
  | .shri _ t _ _ imm => t.isInt && imm.toNat < t.bits
  | .sar _ t _ _ _ => t.isInt
  | .sari _ t _ _ imm => t.isInt && imm.toNat < t.bits
  | .clz _ t _ _ => t.isInt
  | .ctz _ t _ _ => t.isInt
  | .popc _ t _ _ => t.isInt
  | .min _ t _ _ _ => t.isInt
  | .max _ t _ _ _ => t.isInt
  | .minu _ t _ _ _ => t.isInt
  | .maxu _ t _ _ _ => t.isInt
  | .cmp _ t _ _ _ _ => t.isInt
  | .cmpi _ t _ _ _ _ => t.isInt
  | .extb _ _ _ pos len1 _ => pos.toNat + len1.toNat < 64
  | .insb _ _ _ pos len1 => pos.toNat + len1.toNat < 64
  | .fadd _ t _ _ _ _ => !t.isInt
  | .fsub _ t _ _ _ _ => !t.isInt
  | .fmul _ t _ _ _ _ => !t.isInt
  | .ffma _ t _ _ _ _ _ => !t.isInt
  | .fdiv _ t _ _ _ _ => !t.isInt
  | .fsqrt _ t _ _ _ => !t.isInt
  | .fcvt _ t _ _ _ frm u => t != frm && !(t.isInt && frm.isInt) && (t.isInt || frm.isInt || !u)
  | .fcmp _ t _ _ _ _ => !t.isInt
  | .lds _ t _ _ _ u _ => !u || t.isIntLane
  | .ldvs _ t _ _ _ _ => t.isIntLane
  | .ringset _ _ _ lsize esz =>
    if lsize.toNat = 0 then esz.toNat = 0
    else lsize.toNat ≤ 16 && 3 ≤ esz.toNat && esz.toNat ≤ 12 && esz.toNat + lsize.toNat ≤ 20
  | .mld _ t _ _ _ u _ => !u || t.isIntLane
  | .mgath _ t _ _ _ _ => t.isIntLane
  | .amo _ t _ _ _ _ ord sc _ => (t == .i64 || t == .i32) && (ord != .rlx || sc == .tile)
  | .amocas _ t _ _ _ _ ord sc _ => (t == .i64 || t == .i32) && (ord != .rlx || sc == .tile)
  | .vadd _ t _ _ _ rm sat u => laneArith t rm sat u
  | .vsub _ t _ _ _ rm sat u => laneArith t rm sat u
  | .vmul _ t _ _ _ rm sat u => laneArith t rm sat u
  | .vfma _ t _ _ _ _ rm sat u => laneArith t rm sat u
  | .vfms _ t _ _ _ _ rm sat u => laneArith t rm sat u
  | .vmin _ t _ _ _ u => laneMods t .rne false u
  | .vmax _ t _ _ _ u => laneMods t .rne false u
  | .vabs _ t _ _ sat => laneMods t .rne sat false
  | .vneg _ t _ _ sat => laneMods t .rne sat false
  | .vand _ t _ _ _ => t.isIntLane
  | .vor _ t _ _ _ => t.isIntLane
  | .vxor _ t _ _ _ => t.isIntLane
  | .vshl _ t _ _ k => t.isIntLane && shiftOk t k
  | .vshr _ t _ _ k => t.isIntLane && shiftOk t k
  | .vsar _ t _ _ k => t.isIntLane && shiftOk t k
  | .vcmp _ t _ _ _ cond => t.isLane && (t.isInt || cond != .c5)
  | .vsel _ t _ _ _ _ => t.isLane
  | .vcvt _ t _ _ rm sat u frm fmt part => vcvtOk t.toNat frm.toNat fmt.toNat rm sat u part.toNat
  | .vquant _ t _ _ _ _ fmt part => !t.isInt && quantFmt fmt && partOk part.toNat fmt.packed t.lanes
  | .vdeq _ t _ _ _ _ fmt part => !t.isInt && quantFmt fmt && partOk part.toNat fmt.packed t.lanes
  | .vrcp _ t _ _ rm full => !t.isInt && (full || rm == .rne)
  | .vrsq _ t _ _ rm full => !t.isInt && (full || rm == .rne)
  | .vexp2 _ t _ _ rm full => !t.isInt && (full || rm == .rne)
  | .vlog2 _ t _ _ rm full => !t.isInt && (full || rm == .rne)
  | .vrsum _ t _ _ rm sat u => laneMods t rm sat u
  | .vrmax _ t _ _ u => laneMods t .rne false u
  | .vrmin _ t _ _ u => laneMods t .rne false u
  | .vscan _ t _ _ rm sat u o => laneMods t rm sat u && (o == .add || (rm == .rne && !sat))
  | .vperm _ t _ _ _ => t.isLane
  | .vsplat _ t _ _ => t.isLane
  | .vins _ t _ _ _ => t.isLane
  | .vext _ t _ _ _ u => laneMods t .rne false u
  | .viota _ t _ _ _ => t.isIntLane
  | .vpart _ t _ _ _ _ _ _ => t == .i32
  | .vcomp _ t _ _ _ _ => t.isLane
  | .vexpd _ t _ _ _ => t.isLane
  | .vpcnt _ t _ _ => t.isLane
  | .vmovp _ t _ => t.isLane
  | .vmulh _ t _ _ _ _ => t.isIntLane
  | .vclamp _ t _ _ _ _ u => laneMods t .rne false u
  | .mma _ _ a b _ fa fb kb _ =>
    fa.pairOk fb && msrcOk a (32 * (kb.toNat + 1) * fa.bits / 8) && msrcOk b (32 * (kb.toNat + 1) * fb.bits / 8)
  | .mmas _ _ a b _ fa fb kb _ n8 =>
    fa.pairOk fb && msrcOk a (32 * (kb.toNat + 1) * fa.bits / 8) &&
    msrcOk b ((kb.toNat + 1) * (if n8 then 8 else 16) * fb.bits / 8)
  | .mldp _ t _ _ _ _ u => t.isLane && (!u || t == .i16 || t == .i8)
  | .mstp _ t _ _ _ _ rm sat u =>
    t.isLane && (rm == .rne || t == .bf16 || t == .f16) && (!sat || t == .i16 || t == .i8) && (!u || sat)
  | .mops _ imm => mopsOk imm.toNat
  | .mwin _ win => win.toNat ≤ 5
  | .cntadd _ _ q _ => q.toNat != 6
  | .cntrd _ _ a remote _ => remote || a == .reg 0
  | .qfence _ mask => mask.toNat != 0
  | .bar _ _ sc smask => sc != .tile && smask.toNat != 0
  | .netred _ t _ _ _ _ o u sat => t.isLane && (t.isInt || (!u && !sat)) && (o == .add || !sat)
  | .netbc _ t _ _ _ _ _ => t.isLane
  | .redopen _ _ _ _ bexp len1 => bexp.toNat ≤ 277 && len1.toNat ≤ 8191
  | .lksendData _ _ _ _ _ _ _ cnt cidx => cnt || cidx.toNat == 0
  | .lkrecvPost _ _ _ _ _ _ _ cnt cidx => cnt || cidx.toNat == 0
  | .cpywait _ mask => mask.toNat != 0
  | _ => true
where
  /-- An immediate lane shift stays below the width (R235). -/
  shiftOk (t : Ty) : VShift → Bool
    | .lanes _ => true
    | .imm k => k.toNat < t.bits

/-- A drover thread checks the same modifier values; its CSR numbers are those of `droverOk`. -/
def Instr.acceptedOnDrover : Instr → Bool
  | .csrrd _ _ _ => true
  | .csrwr _ _ _ _ => true
  | .csrset _ _ _ _ => true
  | .csrclr _ _ _ _ => true
  | i => i.accepted

/-- On a tile MLD names a ring, never an x register (R185, R190). -/
def Instr.tileForm : Instr → Bool
  | .mld _ _ (.xreg _) _ _ _ _ => false
  | _ => true

/-- A syllable that decodes: on a tile context, or (`dr`) on a drover thread. -/
def Instr.formed (dr : Bool) (i : Instr) : Bool :=
  i.slotClass.isSome && (if dr then i.droverOk && i.acceptedOnDrover else i.accepted && i.tileForm)

end Sys2Proof
end

