-- ==== Sys2Proof/WellFormed.lean ====
section
/-!
DEFINITION. Well-formedness of instructions. A syllable is well-formed on an issuer when it decodes there (R95);
a step of the hardware is well-formed as it stands, since its operands are names and outside data.
-/
namespace Sys2Proof

/-- A syllable that a tile context (`dr` false) or a drover thread (`dr` true) accepts (R95, R106). -/
def Instr.WellFormed (dr : Bool) (i : Instr) : Prop := i.slotClass = none ∨ i.formed dr = true

/-- A syllable of a given class that an issuer accepts. -/
def Instr.SyllableIn (dr : Bool) (c : SClass) (i : Instr) : Prop := i.slotClass = some c ∧ i.formed dr = true

end Sys2Proof
end

