-- ==== Sys2Proof/Decode.lean ====
section
/-!
DEFINITION. Decoding (R89 to R99, R100 to R106) and, after it, the encoder. Decoding is total: a bundle is read
from a store of syllables, or refused by name with the trap that R91 gives.
-/
namespace Sys2Proof

open Sys2Proof.Machine

/-- Codes of a register field, refused outside the list of their kind (R93). -/
def fin2? (n : Nat) : Option (Fin 2) := if h : n < 2 then some ⟨n, h⟩ else none
def fin4? (n : Nat) : Option (Fin 4) := if h : n < 4 then some ⟨n, h⟩ else none
def fin8? (n : Nat) : Option (Fin 8) := if h : n < 8 then some ⟨n, h⟩ else none
def fin16? (n : Nat) : Option (Fin 16) := if h : n < 16 then some ⟨n, h⟩ else none
def fin32? (n : Nat) : Option (Fin 32) := if h : n < 32 then some ⟨n, h⟩ else none

/-- An x or v source code (R93). -/
def src? (n : Nat) : Option Src :=
  if h : n < 32 then some (.reg ⟨n, h⟩) else if h : n - 32 < 16 then some (.pop ⟨n - 32, h⟩) else none

/-- An m source code (R93). -/
def msrc? (n : Nat) : Option MSrc :=
  if h : n < 4 then some (.panel ⟨n, h⟩)
  else if n < 32 then none else if h : n - 32 < 16 then some (.pop ⟨n - 32, h⟩) else none

/-- The d field of MLD: a ring on a tile, an x register on a drover thread (R185, R190). -/
def mdst? (dr : Bool) (n : Nat) : Option MDst :=
  if dr then (fin32? n).map .xreg else (fin16? n).map .ring

def rm? : Nat → Option Rm
  | 0 => some .rne | 1 => some .rz | 2 => some .ru | 3 => some .rd
  | _ => none

def icond? : Nat → Option ICond
  | 0 => some .eq | 1 => some .ne | 2 => some .lt | 3 => some .ge | 4 => some .ltu | 5 => some .geu
  | _ => none

def fcond? : Nat → Option FCond
  | 0 => some .eq | 1 => some .lt | 2 => some .le | 3 => some .un | 4 => some .ne
  | _ => none

def vcond? : Nat → Option VCond
  | 0 => some .c0 | 1 => some .c1 | 2 => some .c2 | 3 => some .c3 | 4 => some .c4 | 5 => some .c5
  | _ => none

def condwOp? : Nat → Option CondwOp
  | 0 => some .set | 1 => some .or | 2 => some .clr
  | _ => none

def amoOp? : Nat → Option AmoOp
  | 0 => some .add | 1 => some .and | 2 => some .or | 3 => some .xor | 4 => some .min | 5 => some .max
  | 6 => some .minu | 7 => some .maxu | 8 => some .swap
  | _ => none

def memOrd? : Nat → Option MemOrd
  | 0 => some .rlx | 1 => some .acq | 2 => some .rel | 3 => some .acqrel
  | _ => none

def scope? : Nat → Option Scope
  | 0 => some .tile | 1 => some .paddock | 2 => some .device | 3 => some .system
  | _ => none

def scanOp? : Nat → Option ScanOp
  | 0 => some .add | 1 => some .max | 2 => some .min
  | _ => none

/-- The guard field [55:51] (R90). -/
def guardOf (w : Nat) : Guard := ⟨⟨fld w 52 4, Nat.mod_lt _ (by decide)⟩, bit w 51⟩

/-- A syllable from its opcode, guard and placed fields (R90). -/
def syl (op : Nat) (g : Guard) (fs : List (Nat × Nat)) : Nat :=
  pack ((op, 56) :: (g.idx.val, 52) :: (g.neg.toNat, 51) :: fs)

/-- The K-class opcodes (R100): the operands of a syllable, before the checks of R95. -/
def rawK (g : Guard) (w : Nat) : Option Instr :=
  match fld w 56 7 with
    | 0x01 => some (.br g (BitVec.ofNat 32 (fld w 16 32)))
    | 0x02 => do let p ← fin16? (fld w 0 4); some (.brp g (BitVec.ofNat 32 (fld w 16 32)) (bit w 4) p)
    | 0x03 => do let a ← src? (fld w 36 6); some (.brx g a (bit w 0))
    | 0x04 => some (.call g (BitVec.ofNat 32 (fld w 16 32)))
    | 0x05 => do let d ← fin32? (fld w 42 6); let a ← src? (fld w 36 6); some (.callx g d a (bit w 0))
    | 0x06 => do let a ← src? (fld w 36 6); some (.ret g a)
    | 0x07 => some (.loop g (BitVec.ofNat 32 (fld w 16 32)) (BitVec.ofNat 4 (fld w 12 4)) (BitVec.ofNat 12 (fld w 0 12)))
    | 0x08 => do let a ← src? (fld w 36 6); some (.loopx g a (BitVec.ofNat 14 (fld w 10 14)) (BitVec.ofNat 4 (fld w 6 4)))
    | 0x09 => some (.close g)
    | 0x0A => some (.yield g)
    | 0x0B => some (.endt g)
    | 0x0C => do let a ← src? (fld w 36 6); let o ← condwOp? (fld w 16 2); some (.condw g a (BitVec.ofNat 6 (fld w 18 6)) o)
    | 0x0D => do let a ← src? (fld w 36 6); let b ← src? (fld w 30 6); some (.token g a b)
    | 0x0E => some (.trap g (BitVec.ofNat 16 (fld w 0 16)))
    | 0x0F => some (.sysc g (BitVec.ofNat 16 (fld w 0 16)))
    | 0x10 => some (.eret g)
    | 0x11 => do let d ← fin32? (fld w 42 6); some (.csrrd g d (BitVec.ofNat 12 (fld w 0 12)))
    | 0x12 => do let d ← fin32? (fld w 42 6); let a ← src? (fld w 36 6); some (.csrwr g d a (BitVec.ofNat 12 (fld w 0 12)))
    | 0x13 => do let d ← fin32? (fld w 42 6); let a ← src? (fld w 36 6); some (.csrset g d a (BitVec.ofNat 12 (fld w 0 12)))
    | 0x14 => do let d ← fin32? (fld w 42 6); let a ← src? (fld w 36 6); some (.csrclr g d a (BitVec.ofNat 12 (fld w 0 12)))
    | _ => none

/-- The I-class opcodes (R101): the operands of a syllable, before the checks of R95. -/
def rawI (g : Guard) (w : Nat) : Option Instr :=
  match fld w 56 7 with
    | 0x01 => do let t ← ty? (fld w 48 3); let d ← fin32? (fld w 42 6); let a ← src? (fld w 36 6); let b ← src? (fld w 30 6); some (.add g t d a b)
    | 0x02 => do let t ← ty? (fld w 48 3); let d ← fin32? (fld w 42 6); let a ← src? (fld w 36 6); some (.addi g t d a (BitVec.ofNat 36 (fld w 0 36)))
    | 0x03 => do let t ← ty? (fld w 48 3); let d ← fin32? (fld w 42 6); let a ← src? (fld w 36 6); let b ← src? (fld w 30 6); some (.sub g t d a b)
    | 0x04 => do let t ← ty? (fld w 48 3); let d ← fin32? (fld w 42 6); let a ← src? (fld w 36 6); let b ← src? (fld w 30 6); some (.mul g t d a b)
    | 0x05 => do let t ← ty? (fld w 48 3); let d ← fin32? (fld w 42 6); let a ← src? (fld w 36 6); let b ← src? (fld w 30 6); some (.mulh g t d a b)
    | 0x06 => do let t ← ty? (fld w 48 3); let d ← fin32? (fld w 42 6); let a ← src? (fld w 36 6); let b ← src? (fld w 30 6); some (.mulhu g t d a b)
    | 0x07 => do let t ← ty? (fld w 48 3); let d ← fin32? (fld w 42 6); let a ← src? (fld w 36 6); let b ← src? (fld w 30 6); some (.div g t d a b)
    | 0x08 => do let t ← ty? (fld w 48 3); let d ← fin32? (fld w 42 6); let a ← src? (fld w 36 6); let b ← src? (fld w 30 6); some (.divu g t d a b)
    | 0x09 => do let t ← ty? (fld w 48 3); let d ← fin32? (fld w 42 6); let a ← src? (fld w 36 6); let b ← src? (fld w 30 6); some (.rem g t d a b)
    | 0x0A => do let t ← ty? (fld w 48 3); let d ← fin32? (fld w 42 6); let a ← src? (fld w 36 6); let b ← src? (fld w 30 6); some (.remu g t d a b)
    | 0x0B => do let t ← ty? (fld w 48 3); let d ← fin32? (fld w 42 6); let a ← src? (fld w 36 6); let b ← src? (fld w 30 6); some (.and g t d a b)
    | 0x0C => do let t ← ty? (fld w 48 3); let d ← fin32? (fld w 42 6); let a ← src? (fld w 36 6); some (.andi g t d a (BitVec.ofNat 36 (fld w 0 36)))
    | 0x0D => do let t ← ty? (fld w 48 3); let d ← fin32? (fld w 42 6); let a ← src? (fld w 36 6); let b ← src? (fld w 30 6); some (.or g t d a b)
    | 0x0E => do let t ← ty? (fld w 48 3); let d ← fin32? (fld w 42 6); let a ← src? (fld w 36 6); some (.ori g t d a (BitVec.ofNat 36 (fld w 0 36)))
    | 0x0F => do let t ← ty? (fld w 48 3); let d ← fin32? (fld w 42 6); let a ← src? (fld w 36 6); let b ← src? (fld w 30 6); some (.xor g t d a b)
    | 0x10 => do let t ← ty? (fld w 48 3); let d ← fin32? (fld w 42 6); let a ← src? (fld w 36 6); some (.xori g t d a (BitVec.ofNat 36 (fld w 0 36)))
    | 0x11 => do let t ← ty? (fld w 48 3); let d ← fin32? (fld w 42 6); let a ← src? (fld w 36 6); let b ← src? (fld w 30 6); some (.shl g t d a b)
    | 0x12 => do let t ← ty? (fld w 48 3); let d ← fin32? (fld w 42 6); let a ← src? (fld w 36 6); some (.shli g t d a (BitVec.ofNat 36 (fld w 0 36)))
    | 0x13 => do let t ← ty? (fld w 48 3); let d ← fin32? (fld w 42 6); let a ← src? (fld w 36 6); let b ← src? (fld w 30 6); some (.shr g t d a b)
    | 0x14 => do let t ← ty? (fld w 48 3); let d ← fin32? (fld w 42 6); let a ← src? (fld w 36 6); some (.shri g t d a (BitVec.ofNat 36 (fld w 0 36)))
    | 0x15 => do let t ← ty? (fld w 48 3); let d ← fin32? (fld w 42 6); let a ← src? (fld w 36 6); let b ← src? (fld w 30 6); some (.sar g t d a b)
    | 0x16 => do let t ← ty? (fld w 48 3); let d ← fin32? (fld w 42 6); let a ← src? (fld w 36 6); some (.sari g t d a (BitVec.ofNat 36 (fld w 0 36)))
    | 0x17 => do let t ← ty? (fld w 48 3); let d ← fin32? (fld w 42 6); let a ← src? (fld w 36 6); some (.clz g t d a)
    | 0x18 => do let t ← ty? (fld w 48 3); let d ← fin32? (fld w 42 6); let a ← src? (fld w 36 6); some (.ctz g t d a)
    | 0x19 => do let t ← ty? (fld w 48 3); let d ← fin32? (fld w 42 6); let a ← src? (fld w 36 6); some (.popc g t d a)
    | 0x1A => do let t ← ty? (fld w 48 3); let d ← fin32? (fld w 42 6); let a ← src? (fld w 36 6); let b ← src? (fld w 30 6); some (.min g t d a b)
    | 0x1B => do let t ← ty? (fld w 48 3); let d ← fin32? (fld w 42 6); let a ← src? (fld w 36 6); let b ← src? (fld w 30 6); some (.max g t d a b)
    | 0x1C => do let t ← ty? (fld w 48 3); let d ← fin32? (fld w 42 6); let a ← src? (fld w 36 6); let b ← src? (fld w 30 6); some (.minu g t d a b)
    | 0x1D => do let t ← ty? (fld w 48 3); let d ← fin32? (fld w 42 6); let a ← src? (fld w 36 6); let b ← src? (fld w 30 6); some (.maxu g t d a b)
    | 0x1E => do let d ← fin32? (fld w 42 6); let a ← src? (fld w 36 6); let b ← src? (fld w 30 6); let c ← fin16? (fld w 24 6); some (.sel g d a b c)
    | 0x1F => do let t ← ty? (fld w 48 3); let d ← fin16? (fld w 42 6); let a ← src? (fld w 36 6); let b ← src? (fld w 30 6); let cond ← icond? (fld w 20 4); some (.cmp g t d a b cond)
    | 0x20 => do let t ← ty? (fld w 48 3); let d ← fin16? (fld w 42 6); let a ← src? (fld w 36 6); let cond ← icond? (fld w 32 4); some (.cmpi g t d a cond (BitVec.ofNat 32 (fld w 0 32)))
    | 0x21 => do let d ← fin32? (fld w 42 6); some (.movw g d (BitVec.ofNat 42 (fld w 0 42)))
    | 0x22 => do let d ← fin32? (fld w 42 6); some (.movhi g d (BitVec.ofNat 22 (fld w 0 22)))
    | 0x23 => do let d ← fin32? (fld w 42 6); let a ← src? (fld w 36 6); some (.extb g d a (BitVec.ofNat 6 (fld w 18 6)) (BitVec.ofNat 6 (fld w 12 6)) (bit w 11))
    | 0x24 => do let d ← fin32? (fld w 42 6); let a ← src? (fld w 36 6); some (.insb g d a (BitVec.ofNat 6 (fld w 18 6)) (BitVec.ofNat 6 (fld w 12 6)))
    | 0x25 => do let t ← ty? (fld w 48 3); let d ← fin32? (fld w 42 6); let a ← src? (fld w 36 6); let b ← src? (fld w 30 6); let rm ← rm? (fld w 22 2); some (.fadd g t d a b rm)
    | 0x26 => do let t ← ty? (fld w 48 3); let d ← fin32? (fld w 42 6); let a ← src? (fld w 36 6); let b ← src? (fld w 30 6); let rm ← rm? (fld w 22 2); some (.fsub g t d a b rm)
    | 0x27 => do let t ← ty? (fld w 48 3); let d ← fin32? (fld w 42 6); let a ← src? (fld w 36 6); let b ← src? (fld w 30 6); let rm ← rm? (fld w 22 2); some (.fmul g t d a b rm)
    | 0x28 => do let t ← ty? (fld w 48 3); let d ← fin32? (fld w 42 6); let a ← src? (fld w 36 6); let b ← src? (fld w 30 6); let c ← src? (fld w 24 6); let rm ← rm? (fld w 22 2); some (.ffma g t d a b c rm)
    | 0x29 => do let t ← ty? (fld w 48 3); let d ← fin32? (fld w 42 6); let a ← src? (fld w 36 6); let b ← src? (fld w 30 6); let rm ← rm? (fld w 22 2); some (.fdiv g t d a b rm)
    | 0x2A => do let t ← ty? (fld w 48 3); let d ← fin32? (fld w 42 6); let a ← src? (fld w 36 6); let rm ← rm? (fld w 22 2); some (.fsqrt g t d a rm)
    | 0x2B => do let t ← ty? (fld w 48 3); let d ← fin32? (fld w 42 6); let a ← src? (fld w 36 6); let rm ← rm? (fld w 22 2); let frm ← ty? (fld w 19 3); some (.fcvt g t d a rm frm (bit w 18))
    | 0x2C => do let t ← ty? (fld w 48 3); let d ← fin16? (fld w 42 6); let a ← src? (fld w 36 6); let b ← src? (fld w 30 6); let cond ← fcond? (fld w 20 4); some (.fcmp g t d a b cond)
    | 0x2D => do let d ← fin16? (fld w 42 6); let a ← fin16? (fld w 36 6); let b ← fin16? (fld w 30 6); some (.plog g d a b (BitVec.ofNat 4 (fld w 20 4)))
    | 0x2E => match fld w 22 2 with
      | 0 => do let d ← fin16? (fld w 42 6); let a ← src? (fld w 36 6); some (.pmov g (.fx d a))
      | 1 => do let d ← fin32? (fld w 42 6); let a ← fin16? (fld w 36 6); some (.pmov g (.tx d a))
      | 2 => do let d ← fin16? (fld w 42 6); let a ← fin16? (fld w 36 6); some (.pmov g (.pp d a))
      | _ => none
    | _ => none

/-- The A-class opcodes (R102): the operands of a syllable, before the checks of R95. -/
def rawA (dr : Bool) (g : Guard) (w : Nat) : Option Instr :=
  match fld w 56 7 with
    | 0x01 => do let t ← ty? (fld w 48 3); let d ← fin32? (fld w 42 6); let a ← src? (fld w 36 6); let k ← fin8? (fld w 33 3); some (.lds g t d a k (bit w 32) (BitVec.ofNat 32 (fld w 0 32)))
    | 0x02 => do let t ← ty? (fld w 48 3); let d ← src? (fld w 42 6); let a ← src? (fld w 36 6); let k ← fin8? (fld w 33 3); some (.sts g t d a k (BitVec.ofNat 32 (fld w 0 32)))
    | 0x03 => do let d ← fin32? (fld w 42 6); let a ← src? (fld w 36 6); let k ← fin8? (fld w 33 3); some (.ldv g d a k (BitVec.ofNat 32 (fld w 0 32)))
    | 0x04 => do let d ← src? (fld w 42 6); let a ← src? (fld w 36 6); let k ← fin8? (fld w 33 3); some (.stv g d a k (BitVec.ofNat 32 (fld w 0 32)))
    | 0x05 => do let t ← ty? (fld w 48 3); let d ← fin32? (fld w 42 6); let a ← src? (fld w 36 6); let b ← src? (fld w 30 6); let k ← fin8? (fld w 24 6); some (.ldvs g t d a b k)
    | 0x06 => do let d ← fin32? (fld w 42 6); let a ← src? (fld w 36 6); let b ← src? (fld w 30 6); let k ← fin8? (fld w 24 6); some (.gath g d a b k)
    | 0x07 => do let d ← src? (fld w 42 6); let a ← src? (fld w 36 6); let b ← src? (fld w 30 6); let k ← fin8? (fld w 24 6); some (.scat g d a b k)
    | 0x08 => do let d ← fin8? (fld w 42 6); let a ← src? (fld w 36 6); let b ← src? (fld w 30 6); some (.winset g d a b)
    | 0x09 => do let d ← fin16? (fld w 42 6); let a ← src? (fld w 36 6); some (.ringset g d a (BitVec.ofNat 5 (fld w 19 5)) (BitVec.ofNat 4 (fld w 15 4)))
    | 0x0A => do let d ← fin16? (fld w 42 6); let a ← src? (fld w 36 6); some (.radv g d a (BitVec.ofNat 17 (fld w 0 17)))
    | 0x0B => do let d ← fin16? (fld w 42 6); let a ← src? (fld w 36 6); some (.rrel g d a (BitVec.ofNat 17 (fld w 0 17)))
    | 0x0C => do let d ← fin16? (fld w 42 6); let a ← src? (fld w 36 6); some (.xlt g d a)
    | 0x0D => do let d ← fin16? (fld w 42 6); some (.hrel g d)
    | 0x0E => do let d ← fin32? (fld w 42 6); let a ← fin16? (fld w 36 6); some (.hinfo g d a (bit w 23))
    | 0x0F => do let t ← ty? (fld w 48 3); let d ← mdst? dr (fld w 42 6); let a ← src? (fld w 36 6); let h ← fin16? (fld w 32 4); some (.mld g t d a h (bit w 31) (BitVec.ofNat 31 (fld w 0 31)))
    | 0x10 => do let d ← fin16? (fld w 42 6); let a ← src? (fld w 36 6); let h ← fin16? (fld w 32 4); some (.mldv g d a h (BitVec.ofNat 31 (fld w 0 31)))
    | 0x11 => do let t ← ty? (fld w 48 3); let d ← fin16? (fld w 42 6); let a ← src? (fld w 36 6); let b ← src? (fld w 30 6); let c ← fin32? (fld w 24 6); some (.mgath g t d a b c)
    | 0x12 => do let t ← ty? (fld w 48 3); let d ← src? (fld w 42 6); let a ← src? (fld w 36 6); let h ← fin16? (fld w 32 4); some (.mst g t d a h (BitVec.ofNat 31 (fld w 0 31)))
    | 0x13 => do let d ← src? (fld w 42 6); let a ← src? (fld w 36 6); let h ← fin16? (fld w 32 4); some (.mstv g d a h (BitVec.ofNat 31 (fld w 0 31)))
    | 0x14 => do let t ← ty? (fld w 48 3); let d ← fin16? (fld w 42 6); let a ← src? (fld w 36 6); let b ← src? (fld w 30 6); let o ← amoOp? (fld w 20 4); let ord ← memOrd? (fld w 18 2); let sc ← scope? (fld w 16 2); let h ← fin16? (fld w 12 4); some (.amo g t d a b o ord sc h)
    | 0x15 => do let t ← ty? (fld w 48 3); let d ← fin16? (fld w 42 6); let a ← src? (fld w 36 6); let b ← src? (fld w 30 6); let c ← src? (fld w 24 6); let ord ← memOrd? (fld w 18 2); let sc ← scope? (fld w 16 2); let h ← fin16? (fld w 12 4); some (.amocas g t d a b c ord sc h)
    | 0x16 => do let d ← fin2? (fld w 42 6); let a ← src? (fld w 36 6); let h ← fin16? (fld w 12 4); some (.sqld g d a (BitVec.ofNat 4 (fld w 20 4)) h)
    | 0x17 => do let d ← fin2? (fld w 42 6); let a ← src? (fld w 36 6); some (.sqpush g d a (BitVec.ofNat 3 (fld w 21 3)))
    | 0x18 => do let a ← src? (fld w 36 6); let b ← src? (fld w 30 6); let h ← fin16? (fld w 12 4); some (.disc g a b h)
    | _ => none

/-- The V-class opcodes (R103): the operands of a syllable, before the checks of R95. -/
def rawV (g : Guard) (w : Nat) : Option Instr :=
  match fld w 56 7 with
    | 0x01 => do let t ← ty? (fld w 48 3); let d ← fin32? (fld w 42 6); let a ← src? (fld w 36 6); let b ← src? (fld w 30 6); let rm ← rm? (fld w 22 2); some (.vadd g t d a b rm (bit w 21) (bit w 20))
    | 0x02 => do let t ← ty? (fld w 48 3); let d ← fin32? (fld w 42 6); let a ← src? (fld w 36 6); let b ← src? (fld w 30 6); let rm ← rm? (fld w 22 2); some (.vsub g t d a b rm (bit w 21) (bit w 20))
    | 0x03 => do let t ← ty? (fld w 48 3); let d ← fin32? (fld w 42 6); let a ← src? (fld w 36 6); let b ← src? (fld w 30 6); let rm ← rm? (fld w 22 2); some (.vmul g t d a b rm (bit w 21) (bit w 20))
    | 0x04 => do let t ← ty? (fld w 48 3); let d ← fin32? (fld w 42 6); let a ← src? (fld w 36 6); let b ← src? (fld w 30 6); let c ← src? (fld w 24 6); let rm ← rm? (fld w 22 2); some (.vfma g t d a b c rm (bit w 21) (bit w 20))
    | 0x05 => do let t ← ty? (fld w 48 3); let d ← fin32? (fld w 42 6); let a ← src? (fld w 36 6); let b ← src? (fld w 30 6); let c ← src? (fld w 24 6); let rm ← rm? (fld w 22 2); some (.vfms g t d a b c rm (bit w 21) (bit w 20))
    | 0x06 => do let t ← ty? (fld w 48 3); let d ← fin32? (fld w 42 6); let a ← src? (fld w 36 6); let b ← src? (fld w 30 6); some (.vmin g t d a b (bit w 20))
    | 0x07 => do let t ← ty? (fld w 48 3); let d ← fin32? (fld w 42 6); let a ← src? (fld w 36 6); let b ← src? (fld w 30 6); some (.vmax g t d a b (bit w 20))
    | 0x08 => do let t ← ty? (fld w 48 3); let d ← fin32? (fld w 42 6); let a ← src? (fld w 36 6); some (.vabs g t d a (bit w 21))
    | 0x09 => do let t ← ty? (fld w 48 3); let d ← fin32? (fld w 42 6); let a ← src? (fld w 36 6); some (.vneg g t d a (bit w 21))
    | 0x0A => do let t ← ty? (fld w 48 3); let d ← fin32? (fld w 42 6); let a ← src? (fld w 36 6); let b ← src? (fld w 30 6); some (.vand g t d a b)
    | 0x0B => do let t ← ty? (fld w 48 3); let d ← fin32? (fld w 42 6); let a ← src? (fld w 36 6); let b ← src? (fld w 30 6); some (.vor g t d a b)
    | 0x0C => do let t ← ty? (fld w 48 3); let d ← fin32? (fld w 42 6); let a ← src? (fld w 36 6); let b ← src? (fld w 30 6); some (.vxor g t d a b)
    | 0x0D => do
      let t ← ty? (fld w 48 3); let d ← fin32? (fld w 42 6); let a ← src? (fld w 36 6)
      match fld w 22 1 with
      | 0 => do let b ← src? (fld w 30 6); some (.vshl g t d a (.lanes b))
      | _ => some (.vshl g t d a (.imm (BitVec.ofNat 6 (fld w 16 6))))
    | 0x0E => do
      let t ← ty? (fld w 48 3); let d ← fin32? (fld w 42 6); let a ← src? (fld w 36 6)
      match fld w 22 1 with
      | 0 => do let b ← src? (fld w 30 6); some (.vshr g t d a (.lanes b))
      | _ => some (.vshr g t d a (.imm (BitVec.ofNat 6 (fld w 16 6))))
    | 0x0F => do
      let t ← ty? (fld w 48 3); let d ← fin32? (fld w 42 6); let a ← src? (fld w 36 6)
      match fld w 22 1 with
      | 0 => do let b ← src? (fld w 30 6); some (.vsar g t d a (.lanes b))
      | _ => some (.vsar g t d a (.imm (BitVec.ofNat 6 (fld w 16 6))))
    | 0x10 => do let t ← ty? (fld w 48 3); let d ← fin32? (fld w 42 6); let a ← src? (fld w 36 6); let b ← src? (fld w 30 6); let cond ← vcond? (fld w 20 4); some (.vcmp g t d a b cond)
    | 0x11 => do let t ← ty? (fld w 48 3); let d ← fin32? (fld w 42 6); let a ← src? (fld w 36 6); let b ← src? (fld w 30 6); let c ← src? (fld w 24 6); some (.vsel g t d a b c)
    | 0x12 => do let d ← fin32? (fld w 42 6); let a ← src? (fld w 36 6); let rm ← rm? (fld w 22 2); some (.vcvt g (BitVec.ofNat 3 (fld w 48 3)) d a rm (bit w 21) (bit w 20) (BitVec.ofNat 3 (fld w 17 3)) (BitVec.ofNat 5 (fld w 12 5)) (BitVec.ofNat 4 (fld w 8 4)))
    | 0x13 => do let t ← ty? (fld w 48 3); let d ← fin32? (fld w 42 6); let a ← src? (fld w 36 6); let c ← fin32? (fld w 24 6); let rm ← rm? (fld w 22 2); let fmt ← mfmt? (fld w 15 5); some (.vquant g t d a c rm fmt (BitVec.ofNat 4 (fld w 11 4)))
    | 0x14 => do let t ← ty? (fld w 48 3); let d ← fin32? (fld w 42 6); let a ← src? (fld w 36 6); let b ← src? (fld w 30 6); let rm ← rm? (fld w 22 2); let fmt ← mfmt? (fld w 15 5); some (.vdeq g t d a b rm fmt (BitVec.ofNat 4 (fld w 11 4)))
    | 0x15 => do let t ← ty? (fld w 48 3); let d ← fin32? (fld w 42 6); let a ← src? (fld w 36 6); let rm ← rm? (fld w 22 2); some (.vrcp g t d a rm (bit w 21))
    | 0x16 => do let t ← ty? (fld w 48 3); let d ← fin32? (fld w 42 6); let a ← src? (fld w 36 6); let rm ← rm? (fld w 22 2); some (.vrsq g t d a rm (bit w 21))
    | 0x17 => do let t ← ty? (fld w 48 3); let d ← fin32? (fld w 42 6); let a ← src? (fld w 36 6); let rm ← rm? (fld w 22 2); some (.vexp2 g t d a rm (bit w 21))
    | 0x18 => do let t ← ty? (fld w 48 3); let d ← fin32? (fld w 42 6); let a ← src? (fld w 36 6); let rm ← rm? (fld w 22 2); some (.vlog2 g t d a rm (bit w 21))
    | 0x19 => do let t ← ty? (fld w 48 3); let d ← fin32? (fld w 42 6); let a ← src? (fld w 36 6); let rm ← rm? (fld w 22 2); some (.vrsum g t d a rm (bit w 21) (bit w 20))
    | 0x1A => do let t ← ty? (fld w 48 3); let d ← fin32? (fld w 42 6); let a ← src? (fld w 36 6); some (.vrmax g t d a (bit w 20))
    | 0x1B => do let t ← ty? (fld w 48 3); let d ← fin32? (fld w 42 6); let a ← src? (fld w 36 6); some (.vrmin g t d a (bit w 20))
    | 0x1C => do let t ← ty? (fld w 48 3); let d ← fin32? (fld w 42 6); let a ← src? (fld w 36 6); let rm ← rm? (fld w 22 2); let o ← scanOp? (fld w 18 2); some (.vscan g t d a rm (bit w 21) (bit w 20) o)
    | 0x1D => do let t ← ty? (fld w 48 3); let d ← fin32? (fld w 42 6); let a ← src? (fld w 36 6); let b ← src? (fld w 30 6); some (.vperm g t d a b)
    | 0x1E => do let t ← ty? (fld w 48 3); let d ← fin32? (fld w 42 6); let a ← src? (fld w 36 6); some (.vsplat g t d a)
    | 0x1F => do let t ← ty? (fld w 48 3); let d ← fin32? (fld w 42 6); let a ← src? (fld w 36 6); let b ← src? (fld w 30 6); some (.vins g t d a b)
    | 0x20 => do let t ← ty? (fld w 48 3); let d ← fin32? (fld w 42 6); let a ← src? (fld w 36 6); let b ← src? (fld w 30 6); some (.vext g t d a b (bit w 20))
    | 0x21 => do let t ← ty? (fld w 48 3); let d ← fin32? (fld w 42 6); let a ← src? (fld w 36 6); let b ← src? (fld w 30 6); some (.viota g t d a b)
    | 0x22 => do let t ← ty? (fld w 48 3); let d ← fin32? (fld w 42 6); let a ← src? (fld w 36 6); let b ← src? (fld w 30 6); let c ← fin32? (fld w 24 6); some (.vpart g t d a b c (bit w 23) (BitVec.ofNat 4 (fld w 16 4)))
    | 0x23 => do let t ← ty? (fld w 48 3); let d ← fin32? (fld w 42 6); let a ← src? (fld w 36 6); let b ← src? (fld w 30 6); let c ← fin32? (fld w 24 6); some (.vcomp g t d a b c)
    | 0x24 => do let t ← ty? (fld w 48 3); let d ← fin32? (fld w 42 6); let a ← src? (fld w 36 6); let b ← src? (fld w 30 6); some (.vexpd g t d a b)
    | 0x25 => do let t ← ty? (fld w 48 3); let d ← fin32? (fld w 42 6); let a ← src? (fld w 36 6); some (.vpcnt g t d a)
    | 0x26 => match fld w 22 2 with
      | 0 => do let t ← ty? (fld w 48 3); let d ← fin16? (fld w 42 6); let a ← src? (fld w 36 6); some (.vmovp g t (.any d a))
      | 1 => do let t ← ty? (fld w 48 3); let d ← fin16? (fld w 42 6); let a ← src? (fld w 36 6); some (.vmovp g t (.all d a))
      | 2 => do let t ← ty? (fld w 48 3); let d ← fin32? (fld w 42 6); let a ← fin16? (fld w 36 6); some (.vmovp g t (.sp d a))
      | _ => none
    | 0x27 => do let t ← ty? (fld w 48 3); let d ← fin32? (fld w 42 6); let a ← src? (fld w 36 6); let b ← src? (fld w 30 6); some (.vmulh g t d a b (bit w 20))
    | 0x28 => do let t ← ty? (fld w 48 3); let d ← fin32? (fld w 42 6); let a ← src? (fld w 36 6); let b ← src? (fld w 30 6); let c ← src? (fld w 24 6); some (.vclamp g t d a b c (bit w 20))
    | _ => none

/-- The M-class opcodes (R104): the operands of a syllable, before the checks of R95. -/
def rawM (g : Guard) (w : Nat) : Option Instr :=
  match fld w 56 7 with
    | 0x01 => do let d ← fin4? (fld w 42 6); let a ← msrc? (fld w 36 6); let b ← msrc? (fld w 30 6); let c ← src? (fld w 24 6); let fa ← mfmt? (fld w 19 5); let fb ← mfmt? (fld w 14 5); some (.mma g d a b c fa fb (BitVec.ofNat 3 (fld w 11 3)) (bit w 10))
    | 0x02 => do let d ← fin4? (fld w 42 6); let a ← msrc? (fld w 36 6); let b ← msrc? (fld w 30 6); let c ← msrc? (fld w 24 6); let fa ← mfmt? (fld w 19 5); let fb ← mfmt? (fld w 14 5); some (.mmas g d a b c fa fb (BitVec.ofNat 3 (fld w 11 3)) (bit w 10) (bit w 9))
    | 0x03 => do let d ← fin4? (fld w 42 6); some (.mzero g d)
    | 0x04 => do let t ← ty? (fld w 48 3); let d ← fin4? (fld w 42 6); let a ← src? (fld w 36 6); let b ← fin8? (fld w 30 6); let c ← src? (fld w 24 6); some (.mldp g t d a b c (bit w 23))
    | 0x05 => do let t ← ty? (fld w 48 3); let d ← fin8? (fld w 42 6); let a ← src? (fld w 36 6); let b ← fin4? (fld w 30 6); let c ← src? (fld w 24 6); let rm ← rm? (fld w 22 2); some (.mstp g t d a b c rm (bit w 21) (bit w 20))
    | 0x06 => do let d ← fin32? (fld w 42 6); let a ← fin4? (fld w 36 6); let b ← src? (fld w 30 6); some (.mrow g d a b)
    | 0x07 => do let d ← fin4? (fld w 42 6); let a ← src? (fld w 36 6); let b ← src? (fld w 30 6); some (.mrput g d a b)
    | 0x08 => do let d ← fin4? (fld w 42 6); let a ← fin4? (fld w 36 6); some (.mtrn g d a)
    | 0x09 => some (.mops g (BitVec.ofNat 42 (fld w 0 42)))
    | 0x0A => some (.mwin g (BitVec.ofNat 3 (fld w 0 3)))
    | 0x0B => match fld w 23 1 with
      | 0 => do let d ← fin32? (fld w 42 6); let a ← fin4? (fld w 36 6); let b ← src? (fld w 30 6); some (.mflg g (.row d a b))
      | _ => do let d ← fin16? (fld w 42 6); let a ← fin4? (fld w 36 6); some (.mflg g (.any d a))
    | 0x0C => do let d ← fin4? (fld w 42 6); some (.mfclr g d)
    | 0x0D => do let d ← fin4? (fld w 42 6); let a ← fin4? (fld w 36 6); let b ← src? (fld w 30 6); let rm ← rm? (fld w 22 2); some (.mscl g d a b rm)
    | 0x0E => do let d ← fin4? (fld w 42 6); let a ← fin4? (fld w 36 6); let b ← src? (fld w 30 6); let c ← src? (fld w 24 6); some (.mexp g d a b c)
    | 0x0F => do let d ← fin32? (fld w 42 6); let a ← fin4? (fld w 36 6); let b ← src? (fld w 30 6); some (.mmax g d a b)
    | _ => none

/-- The E-class opcodes (R105): the operands of a syllable, before the checks of R95. -/
def rawE (g : Guard) (w : Nat) : Option Instr :=
  match fld w 56 7 with
    | 0x01 => do let d ← fin8? (fld w 42 6); let a ← src? (fld w 36 6); let q ← fin4? (fld w 33 3); some (.seq g d a q)
    | 0x02 => do let a ← src? (fld w 36 6); let q ← fin4? (fld w 33 3); some (.seqgo g a q)
    | 0x03 => do let d ← fin8? (fld w 42 6); let a ← src? (fld w 36 6); let q ← fin4? (fld w 33 3); some (.cpy g d a q)
    | 0x04 => do let d ← fin8? (fld w 42 6); let a ← src? (fld w 36 6); let q ← fin4? (fld w 33 3); some (.cpyr g d a q)
    | 0x05 => do let d ← fin8? (fld w 42 6); let a ← src? (fld w 36 6); let q ← fin4? (fld w 33 3); some (.mcast g d a q)
    | 0x06 => do let a ← src? (fld w 36 6); some (.cntadd g a (BitVec.ofNat 3 (fld w 33 3)) (BitVec.ofNat 9 (fld w 0 9)))
    | 0x07 => do let a ← src? (fld w 36 6); some (.cntwait g a (BitVec.ofNat 9 (fld w 0 9)))
    | 0x08 => do let d ← fin32? (fld w 42 6); let a ← src? (fld w 36 6); some (.cntrd g d a (bit w 23) (BitVec.ofNat 9 (fld w 0 9)))
    | 0x09 => some (.qfence g (BitVec.ofNat 6 (fld w 0 6)))
    | 0x0A => some (.drain g)
    | 0x0B => do let sc ← scope? (fld w 22 2); some (.fence g sc)
    | 0x0C => do let sc ← scope? (fld w 20 2); some (.bar g (BitVec.ofNat 2 (fld w 22 2)) sc (BitVec.ofNat 16 (fld w 0 16)))
    | 0x0D => some (.scene g)
    | 0x0E => do let t ← ty? (fld w 48 3); let d ← fin32? (fld w 42 6); let a ← src? (fld w 36 6); let b ← src? (fld w 30 6); let o ← scanOp? (fld w 19 2); some (.netred g t d a b (BitVec.ofNat 3 (fld w 21 3)) o (bit w 18) (bit w 17))
    | 0x0F => do let t ← ty? (fld w 48 3); let d ← fin32? (fld w 42 6); let a ← src? (fld w 36 6); let b ← src? (fld w 30 6); let c ← src? (fld w 24 6); some (.netbc g t d a b c (BitVec.ofNat 3 (fld w 21 3)))
    | 0x10 => do let d ← fin32? (fld w 42 6); let a ← src? (fld w 36 6); some (.redopen g d a (bit w 32) (BitVec.ofNat 9 (fld w 23 9)) (BitVec.ofNat 14 (fld w 0 14)))
    | 0x11 => do let d ← fin32? (fld w 42 6); let a ← src? (fld w 36 6); some (.redclose g d a)
    | 0x12 => do let a ← src? (fld w 36 6); some (.flkadd g a (BitVec.ofNat 8 (fld w 16 8)) (BitVec.ofNat 2 (fld w 14 2)))
    | 0x13 => do let a ← src? (fld w 36 6); some (.flkdel g a (BitVec.ofNat 8 (fld w 16 8)))
    | 0x14 => do let d ← fin8? (fld w 42 6); let a ← src? (fld w 36 6); let q ← fin4? (fld w 33 3); some (.pgcast g d a q)
    | 0x15 => do let a ← src? (fld w 36 6); let b ← src? (fld w 30 6); let c ← src? (fld w 24 6); some (.merge g a b c (BitVec.ofNat 2 (fld w 14 2)))
    | 0x16 => match fld w 22 2 with
      | 0 => do let a ← src? (fld w 36 6); some (.mrgdrnOpen g a (BitVec.ofNat 2 (fld w 14 2)))
      | 1 => do let a ← src? (fld w 36 6); some (.mrgdrnDrain g a (BitVec.ofNat 2 (fld w 14 2)))
      | 2 => do let d ← fin32? (fld w 42 6); some (.mrgdrnFin g d (BitVec.ofNat 2 (fld w 14 2)))
      | _ => none
    | 0x17 => do let d ← fin32? (fld w 42 6); let a ← src? (fld w 36 6); some (.rsv g d a (BitVec.ofNat 3 (fld w 21 3)))
    | 0x18 => do let d ← fin32? (fld w 42 6); let a ← src? (fld w 36 6); some (.unrsv g d a (BitVec.ofNat 3 (fld w 21 3)))
    | 0x19 => match fld w 0 2 with
      | 0 => do let d ← fin8? (fld w 42 6); let a ← src? (fld w 36 6); let q ← fin4? (fld w 33 3); some (.lksendData g d a q (bit w 32) (BitVec.ofNat 6 (fld w 26 6)) (BitVec.ofNat 14 (fld w 12 14)) (bit w 11) (BitVec.ofNat 9 (fld w 2 9)))
      | 1 => do let a ← src? (fld w 36 6); some (.lksendRst g a (bit w 32) (BitVec.ofNat 6 (fld w 26 6)))
      | _ => none
    | 0x1A => match fld w 0 2 with
      | 0 => do let d ← fin8? (fld w 42 6); let a ← src? (fld w 36 6); let q ← fin4? (fld w 33 3); some (.lkrecvPost g d a q (bit w 32) (BitVec.ofNat 6 (fld w 26 6)) (BitVec.ofNat 14 (fld w 12 14)) (bit w 11) (BitVec.ofNat 9 (fld w 2 9)))
      | 1 => do let a ← src? (fld w 36 6); some (.lkrecvRst g a (bit w 32) (BitVec.ofNat 6 (fld w 26 6)))
      | 2 => do let d ← fin32? (fld w 42 6); some (.lkrecvFrame g d (bit w 32))
      | _ => none
    | 0x1B => do let a ← fin16? (fld w 36 6); some (.condv g a (BitVec.ofNat 2 (fld w 22 2)))
    | 0x1C => some (.cpywait g (BitVec.ofNat 4 (fld w 20 4)))
    | _ => none

/-- The syllable of an instruction, written from the formats of R92 and each instruction's own field table.
A step of the hardware has no syllable: 0, which never decodes. -/
def Instr.encode : Instr → Nat
  | .br g off => syl 0x01 g [(off.toNat, 16)]
  | .brp g off neg p => syl 0x02 g [(off.toNat, 16), (neg.toNat, 4), (p.val, 0)]
  | .brx g a link => syl 0x03 g [(a.code, 36), (link.toNat, 0)]
  | .call g off => syl 0x04 g [(off.toNat, 16)]
  | .callx g d a link => syl 0x05 g [(d.val, 42), (a.code, 36), (link.toNat, 0)]
  | .ret g a => syl 0x06 g [(a.code, 36)]
  | .loop g off stages n => syl 0x07 g [(off.toNat, 16), (stages.toNat, 12), (n.toNat, 0)]
  | .loopx g a dist stages => syl 0x08 g [(a.code, 36), (dist.toNat, 10), (stages.toNat, 6)]
  | .close g => syl 0x09 g []
  | .yield g => syl 0x0A g []
  | .endt g => syl 0x0B g []
  | .condw g a word o => syl 0x0C g [(a.code, 36), (word.toNat, 18), (o.code, 16)]
  | .token g a b => syl 0x0D g [(a.code, 36), (b.code, 30)]
  | .trap g code => syl 0x0E g [(code.toNat, 0)]
  | .sysc g num => syl 0x0F g [(num.toNat, 0)]
  | .eret g => syl 0x10 g []
  | .csrrd g d csr => syl 0x11 g [(d.val, 42), (csr.toNat, 0)]
  | .csrwr g d a csr => syl 0x12 g [(d.val, 42), (a.code, 36), (csr.toNat, 0)]
  | .csrset g d a csr => syl 0x13 g [(d.val, 42), (a.code, 36), (csr.toNat, 0)]
  | .csrclr g d a csr => syl 0x14 g [(d.val, 42), (a.code, 36), (csr.toNat, 0)]
  | .add g t d a b => syl 0x01 g [(t.code, 48), (d.val, 42), (a.code, 36), (b.code, 30)]
  | .addi g t d a imm => syl 0x02 g [(t.code, 48), (d.val, 42), (a.code, 36), (imm.toNat, 0)]
  | .sub g t d a b => syl 0x03 g [(t.code, 48), (d.val, 42), (a.code, 36), (b.code, 30)]
  | .mul g t d a b => syl 0x04 g [(t.code, 48), (d.val, 42), (a.code, 36), (b.code, 30)]
  | .mulh g t d a b => syl 0x05 g [(t.code, 48), (d.val, 42), (a.code, 36), (b.code, 30)]
  | .mulhu g t d a b => syl 0x06 g [(t.code, 48), (d.val, 42), (a.code, 36), (b.code, 30)]
  | .div g t d a b => syl 0x07 g [(t.code, 48), (d.val, 42), (a.code, 36), (b.code, 30)]
  | .divu g t d a b => syl 0x08 g [(t.code, 48), (d.val, 42), (a.code, 36), (b.code, 30)]
  | .rem g t d a b => syl 0x09 g [(t.code, 48), (d.val, 42), (a.code, 36), (b.code, 30)]
  | .remu g t d a b => syl 0x0A g [(t.code, 48), (d.val, 42), (a.code, 36), (b.code, 30)]
  | .and g t d a b => syl 0x0B g [(t.code, 48), (d.val, 42), (a.code, 36), (b.code, 30)]
  | .andi g t d a imm => syl 0x0C g [(t.code, 48), (d.val, 42), (a.code, 36), (imm.toNat, 0)]
  | .or g t d a b => syl 0x0D g [(t.code, 48), (d.val, 42), (a.code, 36), (b.code, 30)]
  | .ori g t d a imm => syl 0x0E g [(t.code, 48), (d.val, 42), (a.code, 36), (imm.toNat, 0)]
  | .xor g t d a b => syl 0x0F g [(t.code, 48), (d.val, 42), (a.code, 36), (b.code, 30)]
  | .xori g t d a imm => syl 0x10 g [(t.code, 48), (d.val, 42), (a.code, 36), (imm.toNat, 0)]
  | .shl g t d a b => syl 0x11 g [(t.code, 48), (d.val, 42), (a.code, 36), (b.code, 30)]
  | .shli g t d a imm => syl 0x12 g [(t.code, 48), (d.val, 42), (a.code, 36), (imm.toNat, 0)]
  | .shr g t d a b => syl 0x13 g [(t.code, 48), (d.val, 42), (a.code, 36), (b.code, 30)]
  | .shri g t d a imm => syl 0x14 g [(t.code, 48), (d.val, 42), (a.code, 36), (imm.toNat, 0)]
  | .sar g t d a b => syl 0x15 g [(t.code, 48), (d.val, 42), (a.code, 36), (b.code, 30)]
  | .sari g t d a imm => syl 0x16 g [(t.code, 48), (d.val, 42), (a.code, 36), (imm.toNat, 0)]
  | .clz g t d a => syl 0x17 g [(t.code, 48), (d.val, 42), (a.code, 36)]
  | .ctz g t d a => syl 0x18 g [(t.code, 48), (d.val, 42), (a.code, 36)]
  | .popc g t d a => syl 0x19 g [(t.code, 48), (d.val, 42), (a.code, 36)]
  | .min g t d a b => syl 0x1A g [(t.code, 48), (d.val, 42), (a.code, 36), (b.code, 30)]
  | .max g t d a b => syl 0x1B g [(t.code, 48), (d.val, 42), (a.code, 36), (b.code, 30)]
  | .minu g t d a b => syl 0x1C g [(t.code, 48), (d.val, 42), (a.code, 36), (b.code, 30)]
  | .maxu g t d a b => syl 0x1D g [(t.code, 48), (d.val, 42), (a.code, 36), (b.code, 30)]
  | .sel g d a b c => syl 0x1E g [(d.val, 42), (a.code, 36), (b.code, 30), (c.val, 24)]
  | .cmp g t d a b cond => syl 0x1F g [(t.code, 48), (d.val, 42), (a.code, 36), (b.code, 30), (cond.code, 20)]
  | .cmpi g t d a cond imm => syl 0x20 g [(t.code, 48), (d.val, 42), (a.code, 36), (cond.code, 32), (imm.toNat, 0)]
  | .movw g d imm => syl 0x21 g [(d.val, 42), (imm.toNat, 0)]
  | .movhi g d imm => syl 0x22 g [(d.val, 42), (imm.toNat, 0)]
  | .extb g d a pos len1 sign => syl 0x23 g [(d.val, 42), (a.code, 36), (pos.toNat, 18), (len1.toNat, 12), (sign.toNat, 11)]
  | .insb g d a pos len1 => syl 0x24 g [(d.val, 42), (a.code, 36), (pos.toNat, 18), (len1.toNat, 12)]
  | .fadd g t d a b rm => syl 0x25 g [(t.code, 48), (d.val, 42), (a.code, 36), (b.code, 30), (rm.code, 22)]
  | .fsub g t d a b rm => syl 0x26 g [(t.code, 48), (d.val, 42), (a.code, 36), (b.code, 30), (rm.code, 22)]
  | .fmul g t d a b rm => syl 0x27 g [(t.code, 48), (d.val, 42), (a.code, 36), (b.code, 30), (rm.code, 22)]
  | .ffma g t d a b c rm => syl 0x28 g [(t.code, 48), (d.val, 42), (a.code, 36), (b.code, 30), (c.code, 24), (rm.code, 22)]
  | .fdiv g t d a b rm => syl 0x29 g [(t.code, 48), (d.val, 42), (a.code, 36), (b.code, 30), (rm.code, 22)]
  | .fsqrt g t d a rm => syl 0x2A g [(t.code, 48), (d.val, 42), (a.code, 36), (rm.code, 22)]
  | .fcvt g t d a rm frm u => syl 0x2B g [(t.code, 48), (d.val, 42), (a.code, 36), (rm.code, 22), (frm.code, 19), (u.toNat, 18)]
  | .fcmp g t d a b cond => syl 0x2C g [(t.code, 48), (d.val, 42), (a.code, 36), (b.code, 30), (cond.code, 20)]
  | .plog g d a b f => syl 0x2D g [(d.val, 42), (a.val, 36), (b.val, 30), (f.toNat, 20)]
  | .pmov g (.fx d a) => syl 0x2E g [(d.val, 42), (a.code, 36)]
  | .pmov g (.tx d a) => syl 0x2E g [(d.val, 42), (a.val, 36), (1, 22)]
  | .pmov g (.pp d a) => syl 0x2E g [(d.val, 42), (a.val, 36), (2, 22)]
  | .lds g t d a w u disp => syl 0x01 g [(t.code, 48), (d.val, 42), (a.code, 36), (w.val, 33), (u.toNat, 32), (disp.toNat, 0)]
  | .sts g t d a w disp => syl 0x02 g [(t.code, 48), (d.code, 42), (a.code, 36), (w.val, 33), (disp.toNat, 0)]
  | .ldv g d a w disp => syl 0x03 g [(d.val, 42), (a.code, 36), (w.val, 33), (disp.toNat, 0)]
  | .stv g d a w disp => syl 0x04 g [(d.code, 42), (a.code, 36), (w.val, 33), (disp.toNat, 0)]
  | .ldvs g t d a b w => syl 0x05 g [(t.code, 48), (d.val, 42), (a.code, 36), (b.code, 30), (w.val, 24)]
  | .gath g d a b w => syl 0x06 g [(d.val, 42), (a.code, 36), (b.code, 30), (w.val, 24)]
  | .scat g d a b w => syl 0x07 g [(d.code, 42), (a.code, 36), (b.code, 30), (w.val, 24)]
  | .winset g d a b => syl 0x08 g [(d.val, 42), (a.code, 36), (b.code, 30)]
  | .ringset g d a lsize esz => syl 0x09 g [(d.val, 42), (a.code, 36), (lsize.toNat, 19), (esz.toNat, 15)]
  | .radv g d a n => syl 0x0A g [(d.val, 42), (a.code, 36), (n.toNat, 0)]
  | .rrel g d a n => syl 0x0B g [(d.val, 42), (a.code, 36), (n.toNat, 0)]
  | .xlt g d a => syl 0x0C g [(d.val, 42), (a.code, 36)]
  | .hrel g d => syl 0x0D g [(d.val, 42)]
  | .hinfo g d a va => syl 0x0E g [(d.val, 42), (a.val, 36), (va.toNat, 23)]
  | .mld g t d a h u disp => syl 0x0F g [(t.code, 48), (d.code, 42), (a.code, 36), (h.val, 32), (u.toNat, 31), (disp.toNat, 0)]
  | .mldv g d a h disp => syl 0x10 g [(d.val, 42), (a.code, 36), (h.val, 32), (disp.toNat, 0)]
  | .mgath g t d a b c => syl 0x11 g [(t.code, 48), (d.val, 42), (a.code, 36), (b.code, 30), (c.val, 24)]
  | .mst g t d a h disp => syl 0x12 g [(t.code, 48), (d.code, 42), (a.code, 36), (h.val, 32), (disp.toNat, 0)]
  | .mstv g d a h disp => syl 0x13 g [(d.code, 42), (a.code, 36), (h.val, 32), (disp.toNat, 0)]
  | .amo g t d a b o ord sc h => syl 0x14 g [(t.code, 48), (d.val, 42), (a.code, 36), (b.code, 30), (o.code, 20), (ord.code, 18), (sc.code, 16), (h.val, 12)]
  | .amocas g t d a b c ord sc h => syl 0x15 g [(t.code, 48), (d.val, 42), (a.code, 36), (b.code, 30), (c.code, 24), (ord.code, 18), (sc.code, 16), (h.val, 12)]
  | .sqld g d a n1 h => syl 0x16 g [(d.val, 42), (a.code, 36), (n1.toNat, 20), (h.val, 12)]
  | .sqpush g d a n1 => syl 0x17 g [(d.val, 42), (a.code, 36), (n1.toNat, 21)]
  | .disc g a b h => syl 0x18 g [(a.code, 36), (b.code, 30), (h.val, 12)]
  | .vadd g t d a b rm sat u => syl 0x01 g [(t.code, 48), (d.val, 42), (a.code, 36), (b.code, 30), (rm.code, 22), (sat.toNat, 21), (u.toNat, 20)]
  | .vsub g t d a b rm sat u => syl 0x02 g [(t.code, 48), (d.val, 42), (a.code, 36), (b.code, 30), (rm.code, 22), (sat.toNat, 21), (u.toNat, 20)]
  | .vmul g t d a b rm sat u => syl 0x03 g [(t.code, 48), (d.val, 42), (a.code, 36), (b.code, 30), (rm.code, 22), (sat.toNat, 21), (u.toNat, 20)]
  | .vfma g t d a b c rm sat u => syl 0x04 g [(t.code, 48), (d.val, 42), (a.code, 36), (b.code, 30), (c.code, 24), (rm.code, 22), (sat.toNat, 21), (u.toNat, 20)]
  | .vfms g t d a b c rm sat u => syl 0x05 g [(t.code, 48), (d.val, 42), (a.code, 36), (b.code, 30), (c.code, 24), (rm.code, 22), (sat.toNat, 21), (u.toNat, 20)]
  | .vmin g t d a b u => syl 0x06 g [(t.code, 48), (d.val, 42), (a.code, 36), (b.code, 30), (u.toNat, 20)]
  | .vmax g t d a b u => syl 0x07 g [(t.code, 48), (d.val, 42), (a.code, 36), (b.code, 30), (u.toNat, 20)]
  | .vabs g t d a sat => syl 0x08 g [(t.code, 48), (d.val, 42), (a.code, 36), (sat.toNat, 21)]
  | .vneg g t d a sat => syl 0x09 g [(t.code, 48), (d.val, 42), (a.code, 36), (sat.toNat, 21)]
  | .vand g t d a b => syl 0x0A g [(t.code, 48), (d.val, 42), (a.code, 36), (b.code, 30)]
  | .vor g t d a b => syl 0x0B g [(t.code, 48), (d.val, 42), (a.code, 36), (b.code, 30)]
  | .vxor g t d a b => syl 0x0C g [(t.code, 48), (d.val, 42), (a.code, 36), (b.code, 30)]
  | .vshl g t d a (.lanes b) => syl 0x0D g [(t.code, 48), (d.val, 42), (a.code, 36), (b.code, 30)]
  | .vshl g t d a (.imm k) => syl 0x0D g [(t.code, 48), (d.val, 42), (a.code, 36), (1, 22), (k.toNat, 16)]
  | .vshr g t d a (.lanes b) => syl 0x0E g [(t.code, 48), (d.val, 42), (a.code, 36), (b.code, 30)]
  | .vshr g t d a (.imm k) => syl 0x0E g [(t.code, 48), (d.val, 42), (a.code, 36), (1, 22), (k.toNat, 16)]
  | .vsar g t d a (.lanes b) => syl 0x0F g [(t.code, 48), (d.val, 42), (a.code, 36), (b.code, 30)]
  | .vsar g t d a (.imm k) => syl 0x0F g [(t.code, 48), (d.val, 42), (a.code, 36), (1, 22), (k.toNat, 16)]
  | .vcmp g t d a b cond => syl 0x10 g [(t.code, 48), (d.val, 42), (a.code, 36), (b.code, 30), (cond.code, 20)]
  | .vsel g t d a b c => syl 0x11 g [(t.code, 48), (d.val, 42), (a.code, 36), (b.code, 30), (c.code, 24)]
  | .vcvt g t d a rm sat u frm fmt part => syl 0x12 g [(t.toNat, 48), (d.val, 42), (a.code, 36), (rm.code, 22), (sat.toNat, 21), (u.toNat, 20), (frm.toNat, 17), (fmt.toNat, 12), (part.toNat, 8)]
  | .vquant g t d a c rm fmt part => syl 0x13 g [(t.code, 48), (d.val, 42), (a.code, 36), (c.val, 24), (rm.code, 22), (fmt.code, 15), (part.toNat, 11)]
  | .vdeq g t d a b rm fmt part => syl 0x14 g [(t.code, 48), (d.val, 42), (a.code, 36), (b.code, 30), (rm.code, 22), (fmt.code, 15), (part.toNat, 11)]
  | .vrcp g t d a rm full => syl 0x15 g [(t.code, 48), (d.val, 42), (a.code, 36), (rm.code, 22), (full.toNat, 21)]
  | .vrsq g t d a rm full => syl 0x16 g [(t.code, 48), (d.val, 42), (a.code, 36), (rm.code, 22), (full.toNat, 21)]
  | .vexp2 g t d a rm full => syl 0x17 g [(t.code, 48), (d.val, 42), (a.code, 36), (rm.code, 22), (full.toNat, 21)]
  | .vlog2 g t d a rm full => syl 0x18 g [(t.code, 48), (d.val, 42), (a.code, 36), (rm.code, 22), (full.toNat, 21)]
  | .vrsum g t d a rm sat u => syl 0x19 g [(t.code, 48), (d.val, 42), (a.code, 36), (rm.code, 22), (sat.toNat, 21), (u.toNat, 20)]
  | .vrmax g t d a u => syl 0x1A g [(t.code, 48), (d.val, 42), (a.code, 36), (u.toNat, 20)]
  | .vrmin g t d a u => syl 0x1B g [(t.code, 48), (d.val, 42), (a.code, 36), (u.toNat, 20)]
  | .vscan g t d a rm sat u o => syl 0x1C g [(t.code, 48), (d.val, 42), (a.code, 36), (rm.code, 22), (sat.toNat, 21), (u.toNat, 20), (o.code, 18)]
  | .vperm g t d a b => syl 0x1D g [(t.code, 48), (d.val, 42), (a.code, 36), (b.code, 30)]
  | .vsplat g t d a => syl 0x1E g [(t.code, 48), (d.val, 42), (a.code, 36)]
  | .vins g t d a b => syl 0x1F g [(t.code, 48), (d.val, 42), (a.code, 36), (b.code, 30)]
  | .vext g t d a b u => syl 0x20 g [(t.code, 48), (d.val, 42), (a.code, 36), (b.code, 30), (u.toNat, 20)]
  | .viota g t d a b => syl 0x21 g [(t.code, 48), (d.val, 42), (a.code, 36), (b.code, 30)]
  | .vpart g t d a b c arm s => syl 0x22 g [(t.code, 48), (d.val, 42), (a.code, 36), (b.code, 30), (c.val, 24), (arm.toNat, 23), (s.toNat, 16)]
  | .vcomp g t d a b c => syl 0x23 g [(t.code, 48), (d.val, 42), (a.code, 36), (b.code, 30), (c.val, 24)]
  | .vexpd g t d a b => syl 0x24 g [(t.code, 48), (d.val, 42), (a.code, 36), (b.code, 30)]
  | .vpcnt g t d a => syl 0x25 g [(t.code, 48), (d.val, 42), (a.code, 36)]
  | .vmovp g t (.any d a) => syl 0x26 g [(t.code, 48), (d.val, 42), (a.code, 36)]
  | .vmovp g t (.all d a) => syl 0x26 g [(t.code, 48), (d.val, 42), (a.code, 36), (1, 22)]
  | .vmovp g t (.sp d a) => syl 0x26 g [(t.code, 48), (d.val, 42), (a.val, 36), (2, 22)]
  | .vmulh g t d a b u => syl 0x27 g [(t.code, 48), (d.val, 42), (a.code, 36), (b.code, 30), (u.toNat, 20)]
  | .vclamp g t d a b c u => syl 0x28 g [(t.code, 48), (d.val, 42), (a.code, 36), (b.code, 30), (c.code, 24), (u.toNat, 20)]
  | .mma g d a b c fa fb kb z => syl 0x01 g [(d.val, 42), (a.code, 36), (b.code, 30), (c.code, 24), (fa.code, 19), (fb.code, 14), (kb.toNat, 11), (z.toNat, 10)]
  | .mmas g d a b c fa fb kb z n8 => syl 0x02 g [(d.val, 42), (a.code, 36), (b.code, 30), (c.code, 24), (fa.code, 19), (fb.code, 14), (kb.toNat, 11), (z.toNat, 10), (n8.toNat, 9)]
  | .mzero g d => syl 0x03 g [(d.val, 42)]
  | .mldp g t d a b c u => syl 0x04 g [(t.code, 48), (d.val, 42), (a.code, 36), (b.val, 30), (c.code, 24), (u.toNat, 23)]
  | .mstp g t d a b c rm sat u => syl 0x05 g [(t.code, 48), (d.val, 42), (a.code, 36), (b.val, 30), (c.code, 24), (rm.code, 22), (sat.toNat, 21), (u.toNat, 20)]
  | .mrow g d a b => syl 0x06 g [(d.val, 42), (a.val, 36), (b.code, 30)]
  | .mrput g d a b => syl 0x07 g [(d.val, 42), (a.code, 36), (b.code, 30)]
  | .mtrn g d a => syl 0x08 g [(d.val, 42), (a.val, 36)]
  | .mops g imm => syl 0x09 g [(imm.toNat, 0)]
  | .mwin g win => syl 0x0A g [(win.toNat, 0)]
  | .mflg g (.row d a b) => syl 0x0B g [(d.val, 42), (a.val, 36), (b.code, 30)]
  | .mflg g (.any d a) => syl 0x0B g [(d.val, 42), (a.val, 36), (1, 23)]
  | .mfclr g d => syl 0x0C g [(d.val, 42)]
  | .mscl g d a b rm => syl 0x0D g [(d.val, 42), (a.val, 36), (b.code, 30), (rm.code, 22)]
  | .mexp g d a b c => syl 0x0E g [(d.val, 42), (a.val, 36), (b.code, 30), (c.code, 24)]
  | .mmax g d a b => syl 0x0F g [(d.val, 42), (a.val, 36), (b.code, 30)]
  | .seq g d a q => syl 0x01 g [(d.val, 42), (a.code, 36), (q.val, 33)]
  | .seqgo g a q => syl 0x02 g [(a.code, 36), (q.val, 33)]
  | .cpy g d a q => syl 0x03 g [(d.val, 42), (a.code, 36), (q.val, 33)]
  | .cpyr g d a q => syl 0x04 g [(d.val, 42), (a.code, 36), (q.val, 33)]
  | .mcast g d a q => syl 0x05 g [(d.val, 42), (a.code, 36), (q.val, 33)]
  | .cntadd g a q k => syl 0x06 g [(a.code, 36), (q.toNat, 33), (k.toNat, 0)]
  | .cntwait g a k => syl 0x07 g [(a.code, 36), (k.toNat, 0)]
  | .cntrd g d a remote k => syl 0x08 g [(d.val, 42), (a.code, 36), (remote.toNat, 23), (k.toNat, 0)]
  | .qfence g mask => syl 0x09 g [(mask.toNat, 0)]
  | .drain g => syl 0x0A g []
  | .fence g sc => syl 0x0B g [(sc.code, 22)]
  | .bar g id sc smask => syl 0x0C g [(id.toNat, 22), (sc.code, 20), (smask.toNat, 0)]
  | .scene g => syl 0x0D g []
  | .netred g t d a b grp o u sat => syl 0x0E g [(t.code, 48), (d.val, 42), (a.code, 36), (b.code, 30), (grp.toNat, 21), (o.code, 19), (u.toNat, 18), (sat.toNat, 17)]
  | .netbc g t d a b c grp => syl 0x0F g [(t.code, 48), (d.val, 42), (a.code, 36), (b.code, 30), (c.code, 24), (grp.toNat, 21)]
  | .redopen g d a bf bexp len1 => syl 0x10 g [(d.val, 42), (a.code, 36), (bf.toNat, 32), (bexp.toNat, 23), (len1.toNat, 0), (5, 33)]
  | .redclose g d a => syl 0x11 g [(d.val, 42), (a.code, 36), (5, 33)]
  | .flkadd g a flk st => syl 0x12 g [(a.code, 36), (flk.toNat, 16), (st.toNat, 14)]
  | .flkdel g a flk => syl 0x13 g [(a.code, 36), (flk.toNat, 16)]
  | .pgcast g d a q => syl 0x14 g [(d.val, 42), (a.code, 36), (q.val, 33)]
  | .merge g a b c st => syl 0x15 g [(a.code, 36), (b.code, 30), (c.code, 24), (st.toNat, 14)]
  | .mrgdrnOpen g a st => syl 0x16 g [(a.code, 36), (st.toNat, 14)]
  | .mrgdrnDrain g a st => syl 0x16 g [(a.code, 36), (st.toNat, 14), (1, 22)]
  | .mrgdrnFin g d st => syl 0x16 g [(d.val, 42), (st.toNat, 14), (2, 22)]
  | .rsv g d a dom => syl 0x17 g [(d.val, 42), (a.code, 36), (dom.toNat, 21)]
  | .unrsv g d a dom => syl 0x18 g [(d.val, 42), (a.code, 36), (dom.toNat, 21)]
  | .lksendData g d a q port stream nflit cnt cidx => syl 0x19 g [(d.val, 42), (a.code, 36), (q.val, 33), (port.toNat, 32), (stream.toNat, 26), (nflit.toNat, 12), (cnt.toNat, 11), (cidx.toNat, 2)]
  | .lksendRst g a port stream => syl 0x19 g [(a.code, 36), (port.toNat, 32), (stream.toNat, 26), (1, 0)]
  | .lkrecvPost g d a q port stream nflit cnt cidx => syl 0x1A g [(d.val, 42), (a.code, 36), (q.val, 33), (port.toNat, 32), (stream.toNat, 26), (nflit.toNat, 12), (cnt.toNat, 11), (cidx.toNat, 2)]
  | .lkrecvRst g a port stream => syl 0x1A g [(a.code, 36), (port.toNat, 32), (stream.toNat, 26), (1, 0)]
  | .lkrecvFrame g d port => syl 0x1A g [(d.val, 42), (port.toNat, 32), (2, 0)]
  | .condv g a n => syl 0x1B g [(a.val, 36), (n.toNat, 22)]
  | .cpywait g mask => syl 0x1C g [(mask.toNat, 20)]
  | _ => 0

/-- The operands of a syllable read in a class. -/
def rawDecode (dr : Bool) (c : SClass) (w : Nat) : Option Instr :=
  match c with
  | .k => rawK (guardOf w) w
  | .i => rawI (guardOf w) w
  | .a => rawA dr (guardOf w) w
  | .v => rawV (guardOf w) w
  | .m => rawM (guardOf w) w
  | .e => rawE (guardOf w) w

/-- R95: a syllable decodes when its opcode and fields are codes of their kinds, its values are accepted, and
every bit it does not use is zero, that is, the syllable is the encoding of what was read. -/
def decode (dr : Bool) (c : SClass) (w : Nat) : Option Instr :=
  match rawDecode dr c w with
  | some i => if i.encode = w ∧ i.formed dr = true then some i else none
  | none => none

/-- The slots of a bundle, in the fixed order of R89. -/
inductive Slot where
  | k | i0 | i1 | a | v0 | v1 | m | e
deriving DecidableEq, Repr

/-- The class a slot is decoded in (R90). -/
def Slot.cls : Slot → SClass
  | .k => .k | .i0 => .i | .i1 => .i | .a => .a | .v0 => .v | .v1 => .v | .m => .m | .e => .e

/-- The slot's number: its mask bit less 48 (R89), and its code in ctx.trap.cause (R317). -/
def Slot.num : Slot → Nat
  | .k => 0 | .i0 => 1 | .i1 => 2 | .a => 3 | .v0 => 4 | .v1 => 5 | .m => 6 | .e => 7

/-- All slots in order (R89). -/
def Slot.all : List Slot := [.k, .i0, .i1, .a, .v0, .v1, .m, .e]

/-- A decoded bundle: its header index, point bit, issue delay and syllables with their slots (R89). -/
structure Bundle where
  hdr : Nat
  point : Bool
  delay : Nat
  syls : List (Slot × Instr)
deriving DecidableEq, Repr

/-- Slot syllables of a bundle, n in R89. -/
def Bundle.n (b : Bundle) : Nat := b.syls.length

/-- Why a fetch is refused (R91): a bundle-target trap, a header fault, or the syllable that causes the
illegal-instruction trap with its slot. -/
inductive FetchError where
  | target
  | header
  | syllable (s : Slot) (w : Nat)
deriving DecidableEq, Repr

/-- The destinations that R98 counts: x, v, p, s, h, w and panel registers, less x0 and p0. -/
def Instr.dests (i : Instr) : List Opnd :=
  i.operands.filter fun o =>
    match o with
    | .xd n => n != 0
    | .pd p => p != 0
    | .vd _ => true
    | .pand _ => true
    | .hd _ => true
    | .wd _ => true
    | .xs _ _ => false
    | .vs _ _ => false
    | .ms _ _ _ => false
    | .ps _ => false
    | .xr _ => false
    | .vr _ => false
    | .pans _ => false
    | .hs _ => false
    | .ring _ => false

/-- The first syllable, in slot order, that names a register an earlier one already names (R98). -/
def sameDestination : List Opnd → List (Slot × Instr) → Option Slot
  | _, [] => none
  | seen, (s, i) :: rest =>
    if i.dests.any (seen.contains ·) then some s else sameDestination (seen ++ i.dests) rest

/-- A write of ctx.pred by a CSR instruction (R156). -/
def Instr.writesPred : Instr → Bool
  | .csrwr _ _ _ k => k.toNat == 8
  | .csrset _ _ _ k => k.toNat == 8
  | .csrclr _ _ _ k => k.toNat == 8
  | _ => false

/-- A p or s destination (R156). -/
def Opnd.isPred : Opnd → Bool
  | .pd _ => true
  | _ => false

/-- R156: beside a CSR write of ctx.pred, the first syllable that names a p or s destination. -/
def predClash (syls : List (Slot × Instr)) : Option Slot :=
  if syls.any (fun p => p.2.writesPred) then
    (syls.find? fun p => p.1 != .k && p.2.operands.any Opnd.isPred).map (·.1)
  else none

/-- The slots of a mask, in order (R89). -/
def maskSlots (m : Nat) : List Slot := Slot.all.filter fun s => bit m s.num

/-- The syllables of a bundle, the first that fails to decode deciding the trap (R91). -/
def decodeSlots (dr : Bool) : List Slot → List Nat → Except FetchError (List (Slot × Instr))
  | [], _ => .ok []
  | s :: _, [] => .error (.syllable s 0)
  | s :: ss, w :: ws =>
    match decode dr s.cls w with
    | none => .error (.syllable s w)
    | some i =>
      match decodeSlots dr ss ws with
      | .error e => .error e
      | .ok r => .ok ((s, i) :: r)

/-- The image of the syllable in a slot of a bundle. -/
def slotWord (slots : List Slot) (ws : List Nat) (s : Slot) : Nat :=
  match slots, ws with
  | t :: ts, w :: rest => if t = s then w else slotWord ts rest s
  | _, _ => 0

/-- Slots a drover thread's header may set: K, I0 and A (R106). -/
def droverSlot : Slot → Bool
  | .k => true | .i0 => true | .a => true
  | .i1 => false | .v0 => false | .v1 => false | .m => false | .e => false

/-- A bundle from its header and the syllables after it (R91), standing at header index `pc` of a store whose last index is
`last`. R106 gives the check of a drover's header no place among those of R91: it is made after the room check, as a fault of
the header (log 118). Of a bundle that breaks R98 and R156 no rule says which syllable causes the trap: that of R98
(log 119). -/
def decodeBundle (dr : Bool) (pc : Nat) (h : Nat) (ws : List Nat) (last : Nat) : Except FetchError Bundle :=
  if fld h 56 8 ≠ 0xB7 then .error .target
  else if fld h 0 44 ≠ 0 ∨ fld h 48 8 = 0 then .error .header
  else
    let slots := maskSlots (fld h 48 8)
    if pc + slots.length > last then .error .target
    else if dr ∧ slots.any (fun s => !droverSlot s) then .error .header
    else
      match decodeSlots dr slots ws with
      | .error e => .error e
      | .ok syls =>
        match sameDestination [] syls with
        | some s => .error (.syllable s (slotWord slots ws s))
        | none =>
          match predClash syls with
          | some s => .error (.syllable s (slotWord slots ws s))
          | none => .ok ⟨pc, bit h 47, fld h 44 3, syls⟩

/-- Fetch(pc, from) of R91 over a store of syllables numbered 0 to `last`. -/
def fetch (dr : Bool) (store : Nat → Nat) (last pc : Nat) : Except FetchError Bundle :=
  if pc > last then .error .target
  else decodeBundle dr pc (store pc) ((List.range 8).map fun k => store (pc + 1 + k)) last

/-- A header syllable for the given slots, with no point and no delay (R89). -/
def encodeHeader (slots : List Slot) : Nat := pack ((0xB7, 56) :: slots.map fun s => (1, 48 + s.num))

/-- The words of a bundle that holds one instruction: header, then syllable, the first slot of its class. -/
def encodeBundle (i : Instr) : List Nat :=
  match i.slotClass with
  | some .k => [encodeHeader [.k], i.encode]
  | some .i => [encodeHeader [.i0], i.encode]
  | some .a => [encodeHeader [.a], i.encode]
  | some .v => [encodeHeader [.v0], i.encode]
  | some .m => [encodeHeader [.m], i.encode]
  | some .e => [encodeHeader [.e], i.encode]
  | none => []

/-- The words of a numeral, 64 bits each, the first the lowest. -/
def wordsOf : Nat → Nat → List Nat
  | 0, _ => []
  | n + 1, w => w % 2 ^ 64 :: wordsOf n (w / 2 ^ 64)

/-- The instruction that the decoder reads from a bundle whose bits are `w`: the header is bits 63..0, the slot
syllables follow; with several slots, the first. The bits above `nbits` are zero. -/
def decodeTableWord (nbits w : Nat) : Option Instr :=
  match wordsOf 9 (w % 2 ^ nbits) with
  | h :: ws =>
    match decodeBundle false 0 h ws 16383 with
    | .ok b => b.syls.head?.map (·.2)
    | .error _ => none
  | [] => none

end Sys2Proof
end

