-- ==== Sys2Proof/Machine/Flags.lean ====
section
/-!
DEFINITION. The status flags (R141, R224): bit 0 NX, 1 UF, 2 OF, 3 DZ, 4 NV, 5 sat; and the integer flag
computations of the vector and matrix instructions.
-/
namespace Sys2Proof.Machine

/-- A set of status flags, in the layout of fp.sst, fp.vst and fp.mst (R224). -/
abbrev Flags := BitVec 6

def Flags.none : Flags := 0
def Flags.nx : Flags := 1
def Flags.uf : Flags := 2
def Flags.ovf : Flags := 4
def Flags.dz : Flags := 8
def Flags.nv : Flags := 16
def Flags.sat : Flags := 32

/-- The flag when the condition holds. -/
def Flags.when (c : Bool) (f : Flags) : Flags := if c then f else 0

/-- The OR of a list of flags (R225). -/
def Flags.join (l : List Flags) : Flags := l.foldl (· ||| ·) 0

/-- An integer result of width w: wrapped, or saturated with the sat flag (R223, R232). -/
def intOut (w : Nat) (sat u : Bool) (r : Int) : Nat × Flags :=
  if sat then
    if u then (wrap w (satU w r), Flags.when (satU w r != r) Flags.sat)
    else (wrap w (satS w r), Flags.when (satS w r != r) Flags.sat)
  else (wrap w r, 0)

end Sys2Proof.Machine
end

