-- ==== Sys2Proof/Machine/Context.lean ====
section
/-!
DEFINITION. Sparse stores in canonical form, and what one context (or drover thread) holds: the register bank of
R114, the CSRs of R127, R224 and R317, results in flight, and what a bundle leaves to be done at its end.
-/
namespace Sys2Proof.Machine

/-- Contents by number: strictly rising numbers, and no entry equal to the default. -/
abbrev Sparse (α : Type) := List (Nat × α)

/-- The value at a number, the default where nothing is listed. -/
def Sparse.get {α : Type} (d : α) : Sparse α → Nat → α
  | [], _ => d
  | (j, a) :: r, k => if j = k then a else Sparse.get d r k

/-- The value at a number replaced; writing the default removes the entry. -/
def Sparse.put {α : Type} [DecidableEq α] (d : α) : Sparse α → Nat → α → Sparse α
  | [], k, v => if v = d then [] else [(k, v)]
  | (j, a) :: r, k, v =>
    if k < j then (if v = d then (j, a) :: r else (k, v) :: (j, a) :: r)
    else if k = j then (if v = d then r else (k, v) :: r)
    else (j, a) :: Sparse.put d r k v

/-- Several values written in order. -/
def Sparse.puts {α : Type} [DecidableEq α] (d : α) (m : Sparse α) (l : List (Nat × α)) : Sparse α :=
  l.foldl (fun m p => Sparse.put d m p.1 p.2) m

/-- Canonical form above a bound: every number is at least `lo`, they rise strictly, none lists the default. -/
def Sparse.wfFrom {α : Type} [DecidableEq α] (d : α) : Nat → Sparse α → Bool
  | _, [] => true
  | lo, (j, a) :: r => lo ≤ j && a != d && Sparse.wfFrom d (j + 1) r

/-- Canonical form. -/
def Sparse.wf {α : Type} [DecidableEq α] (d : α) (m : Sparse α) : Bool := Sparse.wfFrom d 0 m

/-- A scratchpad window (R160). -/
structure Window where
  base : BitVec 20
  size : BitVec 21
deriving DecidableEq, Repr

/-- A ring handle (R162), with the entries of it that carry an error (R326). -/
structure Ring where
  base : BitVec 20
  lsize : BitVec 5
  esz : BitVec 4
  prod : BitVec 32
  rd : BitVec 32
  rel : BitVec 32
  res : BitVec 32
  poison : List (BitVec 32)
deriving DecidableEq, Repr

/-- A physical handle: the image of R166, the kept virtual page of R183, and whether an XLT of it is still on its
way. -/
structure Handle where
  valid : Bool
  miss : Bool
  large : Bool
  nalloc : Bool
  unb : Bool
  write : Bool
  read : Bool
  owner : OwnerTag
  frame : BitVec 32
  slice : BitVec 6
  home : BitVec 4
  page : BitVec 39
  pending : Bool
deriving DecidableEq, Repr

/-- A panel: 32 rows of 32 elements, row-major, and the lost-significance mask (R114, R218). -/
structure Panel where
  el : Vector (BitVec 32) 1024
  lost : BitVec 1024
deriving DecidableEq, Repr

/-- A scale-queue entry (R191): claimed by a load, or landed with its 32 bytes. -/
inductive ScaleEntry where
  | claimed (access : Nat) (k : Nat)
  | landed (b : BitVec 256)
deriving DecidableEq, Repr

/-- An entry of the loop stack (R123). -/
structure LoopEntry where
  start : Nat
  stop : Nat
  n : Nat
  i : Nat
  stages : Nat
  closed : Bool
deriving DecidableEq, Repr

/-- The register bank (R114); the top of the loop stack is first. -/
structure Bank where
  x : Vector Word 32
  p : BitVec 8
  s : BitVec 8
  v : Vector VReg 32
  a : Vector Panel 4
  h : Vector Handle 16
  q : Vector Ring 16
  w : Vector Window 8
  sqa : List ScaleEntry
  sqb : List ScaleEntry
  loops : List LoopEntry
deriving DecidableEq, Repr

/-- An access kept by a refused allocation (R189): what it does, through which handle, where, and with what. -/
inductive AccKind where
  | load (w : Nat) (sign : Bool)
  | loadV
  | gather (e : Nat) (lanes : List (Option Nat))
  | store
  | atomic (w : Nat) (o : AmoOp) (b : Nat)
  | cas (w : Nat) (expected new : Nat)
  | scales (b : Bool) (n : Nat)
  | discard
  | counterRead (tile : Nat) (k : Nat) (d : Fin 32)
deriving DecidableEq, Repr

/-- The kept access (R189, R317). -/
structure Kept where
  kind : AccKind
  h : Fin 16
  off : Nat
  data : List Byte
  ring : Option (Fin 16)
  ord : MemOrd
  sc : Scope
deriving DecidableEq, Repr

/-- A precise trap or a record to deliver: the arguments of Deliver (R319). `queue` is the copy queue that holds
the record (R322), and `entry` the e5 entry whose wait a collective fault ends. -/
structure TrapReq where
  code : Nat
  isRec : Bool
  slot : Nat
  ret : Nat
  src : Nat
  info0 : Word
  info1 : Word
  queue : Option (Fin 4)
  entry : Option Nat
deriving DecidableEq, Repr

/-- The trap registers (R317); `queue` remembers whose record the handler received (R323, R324). -/
structure TrapRegs where
  vec : Word
  cause : Word
  ret : Word
  src : Word
  info0 : Word
  info1 : Word
  pred : Word
  handling : Bool
  ovf : Bool
  keep : Option Kept
  loops : List LoopEntry
  queue : Option (Fin 4)
deriving DecidableEq, Repr

/-- The floating-point status registers (R224). -/
structure FpRegs where
  sst : Flags
  vst : Flags
  mst : Flags
  win : BitVec 3
deriving DecidableEq, Repr

/-- A register write. Predicates 0 to 7 are p, 8 to 15 s (R93). -/
inductive RegWrite where
  | x (n : Fin 32) (v : Word)
  | v (n : Fin 32) (v : VReg)
  | p (n : Fin 16) (b : Bool)
  | none
deriving DecidableEq, Repr

/-- Which status register a result's flags are joined into (R224, R225). -/
inductive FpUnit where
  | scalar | vector | matrix
deriving DecidableEq, Repr

/-- A result in flight (R128, R229): what it writes, its flags, the cycle it lands in, whether it holds the
divider, and the access it waits for (a remote CNTRD, R205, or a drover load, R190). -/
structure InFlight where
  write : RegWrite
  flags : Flags
  unit : FpUnit
  due : Nat
  divider : Bool
  access : Option Nat
deriving DecidableEq, Repr

/-- What a context waits for after a bundle has issued. -/
inductive PostWait where
  | accesses (upTo : Nat)               -- DRAIN and FENCE (R286, R287): accesses of the context up to this serial
  | hostOrder (upTo : Nat)              -- FENCE at system scope (R287)
  | alloc (id : Nat)                    -- the allocation decision of an unbacked access (R189)
  | reply (id : Nat)                    -- SYSC, RSV, UNRSV (R154, R192), FLKADD, FLKDEL (R273)
  | e5 (id : Nat)                       -- an e5 entry (R292)
  | handle (h : Fin 16)                 -- ERET's kept access waits for an XLT of its handle (R186, R324)
deriving DecidableEq, Repr

/-- A store or atomic of an unbacked page that waits for its home slice before its bundle issues (R189): its number, the
bundle, the access, and the answer. -/
structure Ask where
  id : Nat
  hdr : Nat
  kept : Kept
  answer : Option Bool
deriving DecidableEq, Repr

/-- How far an ERET has come (R324): not one; begun; its kept access sent as access `id`; or that access refused again. -/
inductive EretStage where
  | none
  | begun
  | sent (id : Nat)
  | again
deriving DecidableEq, Repr

/-- What stands between the issue of a bundle and the choice of the next one: its header index, the index after
it, a control transfer taken, a software trap (R153), a refused access (R189), YIELD, ENDT, ERET, and the waits
that follow the issue. -/
structure Tail where
  hdr : Nat
  fall : Nat
  target : Option Nat
  soft : Option (Nat × BitVec 16)
  refused : Option Kept
  yields : Bool
  ends : Bool
  eret : EretStage
  waits : List PostWait
deriving DecidableEq, Repr

/-- The selector's states (R116); the running context is the one its tile names. -/
inductive Sel where
  | idle | ready | blocked | stopped
deriving DecidableEq, Repr

/-- One context: registers and CSRs. -/
structure Ctx where
  bank : Bank
  fp : FpRegs
  trap : TrapRegs
  pc : Nat
  src : Nat                       -- the from index of the next fetch (R91)
  arg : Word
  node : BitVec 8
  issued : Nat
  ops : List CellOp
  sel : Sel
  flight : List InFlight
  tail : Option Tail
  pending : Option TrapReq
  records : List TrapReq
  marks : Option (Nat × Nat × Nat)       -- a CPYWAIT in wait: header index, mask, serial (R206)
  held : Bool                     -- stopped for the drover by a system fault (R116)
  stall : Nat                     -- cycles of the panel-scoreboard stall (R252)
  fault : Option (Nat × Word × Word)  -- a system fault, its code and info words, that waits for results in flight (R129)
  owed : List (Option (List InFlight) × Nat × Word × Word)  -- token-target faults, with the results each waits for, once its bundle has ended, ctx.pc and info words (R129)
  ask : Option Ask                -- the allocation that the bundle to issue waits for (R189)
deriving DecidableEq, Repr

def Window.launch : Window := ⟨0, 1⟩
def Ring.launch : Ring := ⟨0, 0, 0, 0, 0, 0, 0, []⟩
def Handle.launch : Handle := ⟨false, false, false, false, false, false, false, 0, 0, 0, 0, 0, false⟩
def Panel.zero : Panel := ⟨Vector.replicate 1024 0, 0⟩

/-- The launch values of R114. -/
def Bank.launch : Bank :=
  { x := Vector.replicate 32 0, p := 1, s := 0, v := Vector.replicate 32 0, a := Vector.replicate 4 Panel.zero,
    h := Vector.replicate 16 Handle.launch, q := Vector.replicate 16 Ring.launch,
    w := Vector.replicate 8 Window.launch, sqa := [], sqb := [], loops := [] }

/-- The launch values of R317. -/
def TrapRegs.launch : TrapRegs :=
  { vec := 0, cause := 0, ret := 0, src := 0, info0 := 0, info1 := 0, pred := 0, handling := false, ovf := false,
    keep := none, loops := [], queue := none }

/-- A context at its launch values (R114, R224, R262, R317). -/
def Ctx.launch : Ctx :=
  { bank := Bank.launch, fp := ⟨0, 0, 0, 0⟩, trap := TrapRegs.launch, pc := 0, src := 0, arg := 0, node := 0,
    issued := 0, ops := [.ma], sel := .idle, flight := [], tail := none, pending := none, records := [],
    marks := none, held := false, stall := 0, fault := none, owed := [], ask := none }

end Sys2Proof.Machine
end

