-- ==== Sys2Proof/Machine/Tile.lean ====
section
/-!
DEFINITION. What one tile holds beside its four contexts: instruction store, scratchpad, exchange banks, router
table and boundary register, remote accesses, walks, copy queues and sequencers, the matrix queue, the
collective queue, the merge buffer and the prompter.
-/
namespace Sys2Proof.Machine

/-- rt.bnd (R60). -/
structure Boundary where
  valid : Bool
  owner : OwnerTag
  ocol : BitVec 5
  orow : BitVec 4
  cols : BitVec 5
  rows : BitVec 5
  gate : BitVec 4
deriving DecidableEq, Repr

/-- Storage of a tile: instruction store (R88), scratchpad (R159) with its poisoned 8-byte units (R326), the two
exchange banks and which of them is the stage bank (R297), the router table (R27), rt.bnd (R60), the last owner
(R341). -/
structure TileMem where
  store : Sparse Word
  spad : Sparse Byte
  poison : List Nat
  bank0 : Sparse Byte
  bank1 : Sparse Byte
  stage1 : Bool
  router : Sparse Word
  bnd : Boundary
  lastOwner : Option OwnerTag
deriving DecidableEq, Repr

/-- A part of a remote access that is performed at once: up to 8 aligned bytes (R285), whether it has been, and the
page's nalloc bit and home as its handle held them at issue (R166): a domain, or the slice of a first-touch region, which is
of no domain (R70). -/
structure Piece where
  pa : Nat
  at_ : Nat
  n : Nat
  done : Bool
  nalloc : Bool
  dom : Fin 8
  first : Bool
deriving DecidableEq, Repr

/-- Where the data of an access goes: the claimed entries of a ring (R165), a scale queue (R191), an x register
(R205), or nowhere. -/
inductive AccDest where
  | ring (q : Fin 16) (first : BitVec 32) (k : Nat)
  | scale (b : Bool) (n : Nat)
  | reg (d : Fin 32)
  | none
deriving DecidableEq, Repr

/-- A remote access on its way (R284). `hdl` and `off` name it if it is refused (R189); `admitted` is false while an unbacked
access waits for its decision, `err` that its data carries an uncorrectable error (R326). -/
structure Access where
  id : Nat
  ctx : Fin 4
  kind : AccKind
  owner : OwnerTag
  hdl : Fin 16
  off : Nat
  unb : Bool
  admitted : Bool
  ord : MemOrd
  sc : Scope
  pieces : List Piece
  data : List Byte
  dest : AccDest
  landed : Bool
  err : Bool
deriving DecidableEq, Repr

/-- A translation walk of an XLT (R166, R183). -/
structure Walk where
  ctx : Fin 4
  h : Fin 16
  va : Nat
deriving DecidableEq, Repr

/-- A copy record with the windows it keeps (R194, R196). -/
structure CopyRec where
  dir : Nat
  one : Bool
  swin : Window
  dwin : Window
  bf16 : Bool
  cplace : Nat
  cidx : Nat
  crank : Nat
  len : Nat
  src : Nat
  dst : Nat
  cva : Nat
deriving DecidableEq, Repr

/-- What a queue entry does: a copy, a page pass (R274), a link transfer (R311), or a CNTADD (R203). -/
inductive CopyWork where
  | copy (r : CopyRec)
  | page (cu : Bool) (cnt : Bool) (cidx len src seq flk : Nat)
  | send (port : Bool) (stream : Fin 64) (win : Window) (off n : Nat) (cnt : Option Nat)
  | recv (port : Bool) (stream : Fin 64) (win : Window) (off n : Nat) (cnt : Option Nat)
  | add (k : Nat) (v : Word)
deriving DecidableEq, Repr

/-- An entry of a copy queue: its serial number, owning context, work, the bytes performed (the flits, of a link
transfer), whether it has begun, the cause it stopped for (R202), whether a system fault holds it, whether its bytes are
complete, the cycle of the scene from which it may stand at the head of its queue (R356; log 111), and the fragment it has reached
with what translating that answered (R171: page number, physical address of the page's first byte, leaf). -/
structure CopyEntry where
  serial : Nat
  ctx : Fin 4
  work : CopyWork
  off : Nat
  begun : Bool
  stopped : Option Nat
  held : Bool
  done : Bool
  entered : Nat
  frag : Option (Nat × Nat × Nat)
deriving DecidableEq, Repr

/-- A copy entry as it enters its queue in a cycle of the scene: it reaches the head in the next one at the earliest (R356). -/
def CopyEntry.new (serial : Nat) (c : Fin 4) (w : CopyWork) (sceneCycle : Nat) : CopyEntry :=
  ⟨serial, c, w, 0, false, none, false, false, sceneCycle + 1, none⟩

/-- A sequencer's running nest (R170): indices i0 to i5, the shift of its base, the owning context, and the
condition bits consumed. -/
structure SeqRun where
  idx : List Nat
  shift : Int
  ctx : Fin 4
  used : Nat
deriving DecidableEq, Repr

/-- A sequencer's record (R195), with the windows it keeps. -/
structure SeqRec where
  copy : CopyRec
  counts : List Nat
  skew : Nat
  sstride : List Int
  dstride : List Int
deriving DecidableEq, Repr

/-- A sequencer: empty, loaded or running, its condition buffer (R170, R200), and whether an emission outside
55 bits stopped it. -/
structure Sequencer where
  record : Option SeqRec
  run : Option SeqRun
  bits : List Bool
deriving DecidableEq, Repr

/-- A QFENCE (R291): the queues it names and the serial number it stood at. -/
structure QFence where
  mask : Nat
  serial : Nat
deriving DecidableEq, Repr

/-- An operand of a queued matrix instruction: a panel, or popped ring entries as they stood at issue (R254). -/
inductive MOperand where
  | panel (n : Fin 4)
  | ring (q : Fin 16) (r : Ring) (k : Nat)
deriving DecidableEq, Repr

/-- A matrix-queue entry's work with what it took at issue (R251, R258). -/
inductive MWork where
  | mma (d : Fin 4) (a b : MOperand) (md : Option (MOperand × Bool)) (fa fb : MFmt) (kb : Nat) (z : Bool)
      (win : Nat) (ops : List CellOp) (base : Nat) (sa sb : List (BitVec 256))
  | zero (d : Fin 4)
  | load (d : Fin 4) (t : Ty) (u : Bool) (w : Window) (off stride : Int)
  | store (a : Fin 4) (t : Ty) (rm : Rm) (sat u : Bool) (w : Window) (off stride : Int)
  | rput (d : Fin 4) (v : VReg) (r : Nat)
  | trn (d a : Fin 4)
  | scl (d a : Fin 4) (v : VReg) (rm : Rm)
  | exp (d a : Fin 4) (v : VReg) (s : BitVec 32)
  | add (k : Nat) (v : Word)
deriving DecidableEq, Repr

/-- The sources of a begun entry: operand strings A, B and metadata, scratchpad elements, or a panel (R251). -/
structure MCapture where
  opA : Nat
  opB : Nat
  opM : Nat
  els : List Nat
  panel : Panel
deriving DecidableEq, Repr

/-- What a stopped MMA or MMAS has reached (R271): the next group index, the partial accumulators with their mask
bits, the partial index panel, and the flags of the groups done. -/
structure MPart where
  g : Nat
  acc : Panel
  idx : Panel
  flags : Flags
deriving DecidableEq, Repr

/-- A matrix-queue entry: `pops` are the ring entries its syllable popped (ring, first entry, how many), which RREL may
not release before it completes (R255); `part` is set once a curtain has stopped it at a group boundary (R271). -/
structure MEntry where
  serial : Nat
  ctx : Fin 4
  work : MWork
  begun : Option MCapture
  pops : List (Fin 16 × BitVec 32 × Nat)
  part : Option MPart
deriving DecidableEq, Repr

/-- What an e5 entry asks for (R292). -/
inductive E5Work where
  | bar (id : Fin 4) (sc : Scope) (smask : Nat)
  | scene
  | netred (g : Fin 8) (t : Ty) (o : ScanOp) (u sat : Bool) (d : Fin 32) (v : VReg) (count : Nat)
  | netbc (g : Fin 8) (t : Ty) (d : Fin 32) (v : VReg) (root count : Nat)
  | redopen (d : Fin 32) (va len : Nat) (bf : Bool) (bexp : Int)
  | redclose (d : Fin 32) (va : Nat)
  | add (k : Nat) (v : Word)
deriving DecidableEq, Repr

/-- An e5 entry: its serial number, context, bundle, whether it has been sent, and up to which access serial its
own context's earlier accesses stand before it (R295). -/
structure E5Entry where
  serial : Nat
  ctx : Fin 4
  hdr : Nat
  work : E5Work
  sent : Bool
  upTo : Nat
  done : Bool
deriving DecidableEq, Repr

/-- A merge stream (R277); `busy` holds the sequence number each landing slot is busy with. -/
structure MergeStream where
  opened : Bool
  ctx : Fin 4
  lbase : Nat
  lsz : Nat
  nslot : Nat
  cidx : Nat
  floor : Nat
  m : BitVec 32
  l : BitVec 32
  o : List (BitVec 32)
  busy : List (Option Nat)
deriving DecidableEq, Repr

/-- A merge entry (R277): landed, or filled with its partial. -/
structure MergeEntry where
  stream : Fin 4
  seq : Nat
  part : Option (BitVec 32 × BitVec 32 × List (BitVec 32))
deriving DecidableEq, Repr

/-- Node states (R19). -/
inductive NodeSt where
  | pending | ready | running | complete | skipped
deriving DecidableEq, Repr

/-- A node: its record words (R17), the edits waiting to be installed, oldest first, by packet number (R23), and its state. `dec` is the condition bit
read when it became ready (R121), `again` says that a while node's body is running (R20), and `ended` marks a task whose ENDT issued and whose condition-word writes are still on their way (R121, R150). -/
structure GNode where
  w0 : Word
  w1 : Word
  w2 : Word
  edit : List (Nat × Word × Word × Word)
  st : NodeSt
  dec : Option Bool
  again : Bool
  ended : Bool
deriving DecidableEq, Repr

/-- The state of an edge: undecided, or decided live or not (R19). -/
inductive EdgeSt where
  | undecided | live | dead
deriving DecidableEq, Repr

/-- An edge: its record (R18) and its state. -/
structure GEdge where
  rec_ : BitVec 32
  st : EdgeSt
deriving DecidableEq, Repr

/-- The prompter (R118 to R122): graph copy, condition-word replica, token queue, and whether a dependence
violation halts it. -/
structure Prompter where
  nodes : List GNode
  edges : List GEdge
  cond : Vector (BitVec 32) 64
  tokens : List (Nat × Nat)
  halted : Bool
deriving DecidableEq, Repr

/-- One tile. `run` is the running context, `last` the context the selector counts from (R116), `gap` the issue
delay left (R89), `cycle` ctx.cycle (R127), `stopReq` that a curtain request has reached it
(R329), `past` the cycles counted since (R330), `serial` numbers accesses and queue entries. `stage`, `lead` and
`scene` are tile.stage, the lead context if it is on this tile, and tile.scene (R127); `sceneCycle` is the cycle of the scene (R356). -/
structure Tile where
  mem : TileMem
  pad : Option Nat
  ctxs : Vector Ctx 4
  run : Option (Fin 4)
  last : Fin 4
  gap : Nat
  cycle : Nat
  past : Nat
  stopReq : Bool
  serial : Nat
  accs : List Access
  walks : List Walk
  queues : Vector (List CopyEntry) 4
  seqs : Vector Sequencer 4
  fences : List QFence
  mq : List MEntry
  e5 : List E5Entry
  streams : Vector MergeStream 4
  merges : List MergeEntry
  pr : Prompter
  stage : BitVec 4
  lead : Option (Fin 4)
  scene : BitVec 32
  sceneCycle : Nat
deriving DecidableEq, Repr

def Boundary.reset : Boundary := ⟨false, 0, 0, 0, 0, 0, 0⟩
def TileMem.reset : TileMem := ⟨[], [], [], [], [], false, [], Boundary.reset, none⟩
def Sequencer.empty : Sequencer := ⟨none, none, []⟩
def MergeStream.closed : MergeStream :=
  { opened := false, ctx := 0, lbase := 0, lsz := 10, nslot := 0, cidx := 0, floor := 0, m := 0, l := 0,
    o := List.replicate 64 0, busy := [none, none, none, none] }
def Prompter.empty : Prompter := ⟨[], [], Vector.replicate 64 0, [], false⟩

/-- A tile that holds no paddock, its storage clear (R86, R341). -/
def Tile.reset : Tile :=
  { mem := TileMem.reset, pad := none, ctxs := Vector.replicate 4 Ctx.launch, run := none, last := 3, gap := 0,
    cycle := 0, past := 0, stopReq := false, serial := 0, accs := [], walks := [], queues := Vector.replicate 4 [],
    seqs := Vector.replicate 4 Sequencer.empty, fences := [], mq := [], e5 := [],
    streams := Vector.replicate 4 MergeStream.closed, merges := [], pr := Prompter.empty,
    stage := 0, lead := none, scene := 0, sceneCycle := 0 }

end Sys2Proof.Machine
end

