-- ==== Sys2Proof/Machine/Device.lean ====
section
/-!
DEFINITION. What the device holds beside its tiles: paddocks and launches, the domains, owners and unbacked pages
of the memory system, queue slots and drover threads, links, power, and what has been sent to the outside.
-/
namespace Sys2Proof.Machine

/-- dom[d] (R69, R73): slice set, hash masks, ctl, the values that the next change brings, the retired slices that leave
once no request of the domain is outstanding (R343), and, while hold stands, the accesses and questions that were made
before it, by tile and number: every other one is parked (R73; log 103). -/
structure Domain where
  set : BitVec 64
  hm : Vector (BitVec 32) 6
  hold : Bool
  gen : Bool
  busy : Bool
  refused : Bool
  nextSet : BitVec 64
  nextHm : Vector (BitVec 32) 6
  leave : BitVec 64
  before : List (TileId × Nat)
deriving DecidableEq, Repr

/-- dev.own[o] (R66) and the number of the key in slot o (R67). -/
structure OwnerReg where
  live : Bool
  root : BitVec 32
  key : Nat
deriving DecidableEq, Repr

/-- An allocated unbacked line (R76): its line number PA / 128 and owner. -/
structure UnbLine where
  line : Nat
  owner : OwnerTag
  dom : Fin 8
deriving DecidableEq, Repr

/-- A line admitted at its home slice for an access of a tile that is not yet decided as a whole (R189). -/
structure Claim where
  tile : TileId
  id : Nat
  line : UnbLine
deriving DecidableEq, Repr

/-- A reservation (R77). -/
structure Reservation where
  owner : OwnerTag
  dom : Fin 8
  units : Nat
deriving DecidableEq, Repr

/-- MESI states of a cached half of a host line; invalid halves are not listed (R33, R345). -/
inductive Mesi where
  | shared | exclusive | modified
deriving DecidableEq, Repr

/-- A 64-byte half of a host line in the system-level cache: its number PA / 64, state, bytes, owner tag (R72), the
domain that homes it (R73), and whether a store of a nalloc page has made it dirty (R287). -/
structure HostHalf where
  half : Nat
  st : Mesi
  data : List Byte
  owner : OwnerTag
  dom : Fin 8
  wb : Bool
deriving DecidableEq, Repr

/-- The requests the device sends to the host (R33). -/
inductive CxlReq where
  | rdShared | rdOwn | rdOwnNoData | dirtyEvict | cleanEvict | cleanEvictNoData
deriving DecidableEq, Repr

/-- What waits for a half (R345): part k of an access of a tile, the copy at the head of a queue, its counter add, or the
page of a pass, by its paddock, rank and serial number. -/
inductive HostWait where
  | access (t : TileId) (id k : Nat)
  | copy (t : TileId) (q : Fin 4)
  | add (t : TileId) (q : Fin 4)
  | page (p rank serial : Nat)
deriving DecidableEq, Repr

/-- A request that waits for the host's response, with the owner whose access made it, the domain of its page, what
waits to be performed against the response (R346), and whether every access that waits is to a nalloc page, so that the half
comes into no way (R72). -/
structure HostReq where
  half : Nat
  kind : CxlReq
  owner : OwnerTag
  dom : Fin 8
  waiters : List HostWait
  nalloc : Bool
deriving DecidableEq, Repr

/-- An element of a reduction window (R221). -/
structure RedElem where
  acc : Int
  count : Nat
  poison : Bool
deriving DecidableEq, Repr

def RedElem.zero : RedElem := ⟨0, 0, false⟩

/-- An open reduction window (R302): its owner, start and length, element type, base exponent, the physical pages of
its range in order, its elements, and the overflow flag. -/
structure RedWindow where
  owner : OwnerTag
  va : Nat
  len : Nat
  bf : Bool
  bexp : Int
  pages : List Nat
  els : Sparse RedElem
  ovf : Bool
deriving DecidableEq, Repr

/-- The memory system: bytes by physical address (R62), the key each device line was written under (R67), 8-byte
units with an uncorrectable error (R326), domains, owners, the frame owner and region tables' bases, granted aperture
frames, unbacked lines, reservations and the late map (R76 to R80), windows (R302), host halves and the requests for
them (R345), lines of device memory the host may hold (R293), frames retired, channels failing, channels retired (R343), the
partition mode (R74), what numbers keys, the owners by their most recent RSV, youngest first (R80, R192), what late
frames hold behind lines written since they were last written back (R352), the lines admitted for accesses that are not yet
decided (R189), the ways withdrawn, by slice and set (R343), and the page whose conversion waits for a frame, by owner and
aperture frame (R80). -/
structure MemSys where
  bytes : List Host.Cell
  tags : Sparse Nat
  bad : List Nat
  doms : Vector Domain 8
  owners : Vector OwnerReg 256
  fot : BitVec 64
  rgn : BitVec 64
  grants : List (Nat × OwnerTag)
  lines : List UnbLine
  resv : List Reservation
  late : List (Nat × Nat)
  wins : List RedWindow
  halves : List HostHalf
  hreqs : List HostReq
  hostHeld : List Nat
  retired : List Nat
  failing : List Nat
  chans : Nat
  mode : BitVec 2
  keys : Nat
  rsvs : List OwnerTag
  behind : List (Nat × List Byte)
  claims : List Claim
  lost : List (Nat × Nat)
  converting : Option (OwnerTag × Nat)
deriving DecidableEq, Repr

/-- A drover thread (R106, R157, R190, R327): its registers, its own address map, its bundles, its cycle count, and the
issue delay left (R89). -/
structure Drover where
  ctx : Ctx
  mem : Sparse Byte
  store : Sparse Word
  cycle : Nat
  gap : Nat
  halted : Bool
deriving DecidableEq, Repr

/-- What a port holds for one stream (R311, R312): the flits waiting to leave with the serial number of their entry, the flits received and not landed,
whether each side is halted, and the frame a reset named for lifting the halt (R313). -/
structure PortStream where
  sendBuf : List (Nat × BitVec 1024)
  recvBuf : List (BitVec 1024)
  halted : Bool
  rearm : Option Nat
deriving DecidableEq, Repr

/-- A Duotte port (R306 to R309): lk.bind, lk.frame, the timetable store, the paddock it is bound to, its streams,
whether its paddock is under a curtain (R315), and the uncorrectable frames that its next headers report, oldest first
(R312). -/
structure Port where
  bound : Bool
  side : Bool
  trained : Bool
  err : Bool
  plen : BitVec 12
  owner : OwnerTag
  tag : BitVec 32
  frame : BitVec 48
  table : Sparse Word
  pad : Option Nat
  streams : Vector PortStream 64
  curtained : Bool
  report : List (BitVec 48)
deriving DecidableEq, Repr

/-- A condition-word write on its way to every replica, with the rank and node of its task (R121, R151). -/
structure CondMsg where
  rank : Nat
  node : Nat
  op : CondwOp
  word : Fin 64
  v : BitVec 32
deriving DecidableEq, Repr

/-- An arrival or contribution: the rank, the serial number of its e5 entry, and the entry's work (R292). -/
structure NetMsg where
  rank : Nat
  serial : Nat
  work : E5Work
deriving DecidableEq, Repr

/-- What instances are formed by: a barrier id, or a group of NETRED or NETBC (R295, R300, R301). -/
inductive NetKey where
  | bar (id : Fin 4)
  | red (g : Fin 8)
  | bc (g : Fin 8)
deriving DecidableEq, Repr

/-- An instance being gathered at the rank 0 tile (R295, R300, R301). -/
structure Gathered where
  key : NetKey
  entries : List NetMsg
deriving DecidableEq, Repr

/-- A flock (R272): its members with their streams, the late ranks, the begun bit. -/
structure Flock where
  member : List (Nat × Fin 4)
  late : List Nat
  begun : Bool
deriving DecidableEq, Repr

/-- A page pass (R275): the copy entry it serves (rank, queue, serial), its record, its page bytes as far as read, the
snapshot ranks still to be served in snake order (none before its begin event is applied), and what its fragments were
translated to (R171): the physical address of each page's first byte, with its leaf. -/
structure Pass where
  rank : Nat
  q : Fin 4
  serial : Nat
  cu : Bool
  seq : Nat
  flk : Nat
  src : Nat
  len : Nat
  page : List Byte
  left : Option (List (Nat × Fin 4))
  frags : List (Nat × Nat)
deriving DecidableEq, Repr

/-- A flit on its way (R356): the rank whose router takes it, at which input and in which cycle of the scene, its bytes, and
the dir-2 copy it belongs to, by rank, queue and serial number. -/
structure Flit where
  rank : Nat
  inp : Nat
  cycle : Nat
  data : List Byte
  src : Nat
  q : Fin 4
  serial : Nat
deriving DecidableEq, Repr

/-- What the tiles of a paddock exchange (R121, R122, R272, R275, R292 to R301, R356), and the router outputs that flits
of this scene have used, as (rank, output, cycle) (R28), and the ranks whose router a route conflict has stopped (R325).
Every part names tiles by rank, so that a curtain may move them (R305, R332). -/
structure PadNet where
  condw : List CondMsg
  tokens : List (Nat × Nat)
  arrivals : List NetMsg
  gathered : List Gathered
  scenes : List NetMsg
  used : List (Nat × Nat × Nat)
  flocks : List (Nat × Flock)
  passes : List Pass
  dead : List Nat
  flits : List Flit
deriving DecidableEq, Repr

def PadNet.empty : PadNet := ⟨[], [], [], [], [], [], [], [], [], []⟩

/-- A system fault on its way to the drover thread of its paddock (R325). -/
structure SysFault where
  code : Nat
  pad : Option Nat
  rank : Nat
  ctx : Option (Fin 4)
  pc : Nat
  info0 : Word
  info1 : Word
deriving DecidableEq, Repr

/-- Where a launch stands (R82, R328 to R338): placed and loading, running, and so on. -/
inductive Phase where
  | loading | running | curtaining | curtained | killing | killed
deriving DecidableEq, Repr

/-- What a kill reports in the completion record (R336, R337): status, where, fpc and the info words. -/
structure KillInfo where
  status : Nat
  place : Nat
  fpc : Nat
  info0 : Word
  info1 : Word
deriving DecidableEq, Repr

/-- A segment's placed range and what its digest covers beside its bytes (R8, R87). -/
structure CodeSeg where
  va : Nat
  flen : Nat
  msize : Nat
  entry : List Byte
  digest : BitVec 256
deriving DecidableEq, Repr

/-- The image of a curtained paddock (R332): its tiles in rank order, its size in 64 KiB units, the spill frames
that hold it (none while it lies in the green room), and when it was saved (R333). -/
structure Image where
  tiles : List Tile
  units : Nat
  frames : List Nat
  stamp : Nat
deriving DecidableEq, Repr

/-- A queue: its owner, control block and ring (R36). Binding any slot to the same ones resumes it (R48). -/
structure QueueId where
  owner : OwnerTag
  cb : BitVec 64
  base : BitVec 64
deriving DecidableEq, Repr

/-- The records of one graph edit for a queue and tag (R23, R41): its packet's number, and each new record with its node. -/
structure KeptEdit where
  k : Nat
  queue : QueueId
  tag : BitVec 32
  recs : List (Nat × List Word)
deriving DecidableEq, Repr

/-- A launch whose pages are marked and whose start waits for the invalidations of step 7 (R82, R167): its graph,
attestation record, code segment and late-frame pool, and the accesses, by tile and number, that stood then. -/
structure Loaded where
  nodes : List GNode
  edges : List GEdge
  attest : BitVec 256
  code : CodeSeg
  late : List Nat
  wait : List (TileId × Nat)
deriving DecidableEq, Repr

/-- A launch and its paddock: its slot and queue, the function, process, class and priority of the queue (R49), the
packet's words and number, its code segment, attestation record (R84), late-frame pool (R29), curtain count (R336),
the kill that stands, the image, the rounds it has waited for a place when curtained (R50), the token-target faults
recorded (R325), the edits made to its graph (R23), whether it has held its tiles for a part only of the time since use
was last counted (R49), its launch once its pages are marked, and whether a curtain request waits for the clear of hold (R73,
R329). -/
structure Paddock where
  pid : Nat
  owner : OwnerTag
  slot : SlotId
  queue : QueueId
  fn : Fin 17
  proc : Fin 64
  cls : Nat
  prio : Nat
  phase : Phase
  ocol : Nat
  orow : Nat
  cols : Nat
  rows : Nat
  nscene : Nat
  nent : Nat
  net : PadNet
  pkt : List Word
  k : Nat
  code : CodeSeg
  attest : BitVec 256
  late : List Nat
  curtains : Nat
  killed : Option KillInfo
  image : Option Image
  waited : Nat
  recorded : List SysFault
  edits : List KeptEdit
  part : Bool
  loaded : Option Loaded
  due : Bool
deriving DecidableEq, Repr

/-- A packet taken and not begun (R38): its number, queue and words, the ring index of its level-0 packet, its level
(R44), the indirect packet whose buffer holds it, the status if it is a launch refused at step 0 of R82, and the rounds
a launch has waited (R50). -/
structure Taken where
  k : Nat
  queue : QueueId
  words : List Word
  idx : Nat
  level : Nat
  parent : Option Nat
  refused : Option Nat
  waited : Nat
deriving DecidableEq, Repr

/-- A packet begun and not complete (R42): its number, queue and function, and whether its work is done. `target` is
the launch that a launch packet began or a kill packet names; `opened` says an indirect packet's buffer is open; `look`
says that a counter wait is to read its counter (R40). -/
structure Running where
  k : Nat
  queue : QueueId
  fn : Fin 17
  words : List Word
  idx : Nat
  level : Nat
  parent : Option Nat
  target : Option Nat
  opened : Bool
  done : Bool
  look : Bool
deriving DecidableEq, Repr

/-- The queue's owner. -/
def Running.owner (r : Running) : OwnerTag := r.queue.owner

/-- A buffer of packets being taken (R42): its queue, the indirect packet, the next packet's address, how many are
left. -/
structure Buffer where
  queue : QueueId
  k : Nat
  va : Nat
  left : Nat
  level : Nat
  idx : Nat
deriving DecidableEq, Repr

/-- The record of a completed launch that a quote reads (R363). -/
structure History where
  tag : BitVec 32
  owner : OwnerTag
  status : Nat
  attest : BitVec 256
deriving DecidableEq, Repr

/-- Queue slot n (R45, R46) with the state of its queue: the next packet's ring index, the packet taken, the packets
begun and the last 16 launches (R363). -/
structure QueueSlot where
  bound : Bool
  fn : BitVec 5
  proc : BitVec 6
  cls : BitVec 2
  prio : BitVec 4
  lsize : BitVec 5
  owner : OwnerTag
  cb : BitVec 64
  base : BitVec 64
  epkt : BitVec 64
  halted : Bool
  unmapped : Bool
  warn : Bool
  err : BitVec 5
  wake : Bool
  next : Nat
  taken : Option Taken
  running : List Running
  hist : List History
deriving DecidableEq, Repr

/-- A function (R35, R49, R52, R53): its proxy ring, share, weights, use in the round in tile-µs by process, the
number of its next call, whether a reset runs, whether its MSI-X vectors are masked, and the process and tiles of each
of its paddocks that have given their tiles back since use was last counted. -/
structure Fn where
  cb : BitVec 64
  base : BitVec 64
  lsize : BitVec 5
  owner : OwnerTag
  share : BitVec 8
  wt : Vector (BitVec 8) 64
  use : Vector Nat 64
  calls : Nat
  resetting : Bool
  masked : Bool
  left : List (Fin 64 × Nat)
deriving DecidableEq, Repr

/-- The device registers of R35, with the health, power, boot and retirement state of R343, R344, R358 to R362: whether a mode
change waits for its conversions (R75, R80), the owner command under way (its operation and owner), the failed physical
tiles (column, row), of which the remapping of R54 follows, the retired rows, the firmware images written through the mailbox
(version and digest), and the digests of the images that run. -/
structure DevRegs where
  clsMin : BitVec 32
  victim : BitVec 8
  ownCmd : Option (Nat × OwnerTag)
  ownRefused : Bool
  ownOwner : OwnerTag
  round : BitVec 17
  slcDone : Bool
  slcRefused : Bool
  slcBusy : Bool
  spill : BitVec 64
  spillN : BitVec 17
  lock : Bool
  held : BitVec 384
  absent : BitVec 384
  failed : List (Nat × Nat)
  chanErrs : Sparse Nat
  tileErrs : Sparse Nat
  ways : Sparse Nat
  slices : Nat
  rows : List Nat
  clk : Nat
  cur : BitVec 2
  req : BitVec 2
  heldReq : Option (BitVec 2)
  pwrBusy : Bool
  tj : BitVec 8
  tpeak : BitVec 8
  power : BitVec 16
  pthr : Bool
  tthr : Bool
  hot : Bool
  low : Nat
  ready : Bool
  stage : BitVec 8
  fwver : BitVec 16
  err : BitVec 8
  nextSm : Option (BitVec 16 × BitVec 256)
  nextDrover : Option (BitVec 16 × BitVec 256)
  smDigest : BitVec 256
  droverDigest : BitVec 256
  off : Bool
deriving DecidableEq, Repr

/-- What the device sends to the outside. -/
inductive OutMsg where
  /-- An MSI-X message: function and vector (R43). -/
  | msix (fn vec : Nat)
  /-- A request to the host for a half, with the data of a dirty eviction (R345). -/
  | cxl (r : CxlReq) (half : Nat) (data : List Byte)
  /-- The answer to a snoop (R345). -/
  | snoop (half : Nat) (data : Option (List Byte))
  /-- A back-invalidation of a line of device memory (R293). -/
  | backInv (line : Nat)
  /-- The data of a host read over CXL.mem (R293); none where it carries an error (R326). -/
  | memData (pa : Nat) (data : Option (List Byte))
  /-- A frame on a Duotte port (R312). -/
  | frame (port : Bool) (f : LinkFrame)
  /-- An attestation quote, or the SPDM error in its place (R363). -/
  | quote (q : Option (List Byte))
  /-- An entry of the stage manager's log (R326, R327). -/
  | log (what place : Nat)
  /-- What a firmware update answers (R362). -/
  | firmware (accepted : Bool)
deriving DecidableEq, Repr

def QueueSlot.reset : QueueSlot :=
  { bound := false, fn := 0, proc := 0, cls := 0, prio := 0, lsize := 0, owner := 0, cb := 0, base := 0, epkt := 0,
    halted := false, unmapped := false, warn := false, err := 0, wake := false, next := 0,
    taken := none, running := [], hist := [] }

def Fn.reset : Fn :=
  { cb := 0, base := 0, lsize := 0, owner := 0, share := 15, wt := Vector.replicate 64 16,
    use := Vector.replicate 64 0, calls := 0, resetting := false, masked := false, left := [] }

def DevRegs.reset : DevRegs :=
  { clsMin := 0x08101008, victim := 0xFF, ownCmd := none, ownRefused := false, ownOwner := 0, round := 10000,
    slcDone := false, slcRefused := false, slcBusy := false, spill := 0, spillN := 0, lock := false, held := 0, absent := 0,
    failed := [], chanErrs := [], tileErrs := [], ways := [], slices := 0, rows := [],
    clk := 1900, cur := 1, req := 1, heldReq := none, pwrBusy := false, tj := 0, tpeak := 0, power := 0,
    pthr := false, tthr := false, hot := false, low := 0, ready := false, stage := 0, fwver := 0, err := 0,
    nextSm := none, nextDrover := none, smDigest := 0, droverDigest := 0, off := false }

def PortStream.empty : PortStream := ⟨[], [], false, none⟩
def Port.reset : Port :=
  { bound := false, side := false, trained := false, err := false, plen := 0, owner := 0, tag := 0, frame := 0,
    table := [], pad := none, streams := Vector.replicate 64 PortStream.empty,
    curtained := false, report := [] }
def Domain.reset : Domain :=
  ⟨0, Vector.replicate 6 0, false, false, false, false, 0, Vector.replicate 6 0, 0, []⟩
/-- Key numbers: 0 is the device's own key, in slot 0 at reset, 1 stands for no key, and creates draw from 2 upward (R67;
log 8). -/
def MemSys.reset : MemSys :=
  { bytes := [], tags := [], bad := [], doms := Vector.replicate 8 Domain.reset,
    owners := (Vector.replicate 256 ⟨false, 0, 1⟩).set 0 ⟨false, 0, 0⟩, fot := 0, rgn := 0, grants := [], lines := [], resv := [],
    late := [], wins := [], halves := [], hreqs := [], hostHeld := [], retired := [], failing := [], chans := 0, mode := 0,
    keys := 2, rsvs := [], behind := [], claims := [], lost := [], converting := none }
def Drover.reset : Drover := ⟨Ctx.launch, [], [], 0, 0, false⟩

end Sys2Proof.Machine
end

