-- ==== Sys2Proof/Machine/State.lean ====
section
/-!
DEFINITION. The state of the machine, the reasons a step can stop, and the state after reset.
-/
namespace Sys2Proof.Machine

/-- A pop of the bundle in issue (R97): the syllable's slot and field, the ring as it stands for this pop, the
entries it takes, the operand bytes, and the operand they hold. -/
structure Pop where
  slot : Nat
  field : Nat
  q : Fin 16
  ring : Ring
  k : Nat
  bytes : Nat
  value : Nat
deriving DecidableEq, Repr

/-- The bundle in issue (R130, R283): who issues it, the slot now performing, header index and slot syllables,
the context and the tile's storage as they stood before it, its pops, the syllables still to perform, and whether
its waits and checks have been passed (R321). -/
structure Issue where
  agent : Agent
  slot : Nat
  hdr : Nat
  n : Nat
  ctx : Ctx
  mem : TileMem
  pops : List Pop
  todo : List (Slot × Instr)
  cleared : Bool
deriving DecidableEq, Repr

/-- A request that stands at the drover or at the rank 0 tile, for which a context waits (R154, R192, R273). -/
inductive CallKind where
  | sysc (num : BitVec 16)
  | rsv (units : Nat) (dom : Fin 8)
  | unrsv (units : Nat) (dom : Fin 8)
  | flkAdd (f : Nat) (stream : BitVec 2)
  | flkDel (f : Nat)
deriving DecidableEq, Repr

/-- A standing request: its number, its context by paddock and rank (so that a curtain may move it, R154), what it
asks, its arguments x1 to x6, the register its status lands in, and the number under which it stands at the host
proxy once forwarded (R52). -/
structure Call where
  id : Nat
  pad : Nat
  rank : Nat
  c : Fin 4
  kind : CallKind
  args : List Word
  d : Fin 32
  forwarded : Option Nat
deriving DecidableEq, Repr

/-- The state of the whole device. -/
structure State where
  agenda : List Instr
  focus : Issuer
  issue : Issue
  tiles : Vector Tile 384
  drovers : Vector Drover 64
  mem : MemSys
  ports : Vector Port 2
  slots : Vector QueueSlot 64
  fns : Vector Fn 17
  dev : DevRegs
  pads : List Paddock
  buffers : List Buffer
  kept : List KeptEdit
  out : List OutMsg
  faults : List SysFault
  calls : List Call
  serial : Nat
  fresh : Nat
deriving DecidableEq, Repr

/-- Why the machine stops. -/
inductive Fault where
  /-- Raised by a step that is no power-on once module power is removed (R359): a device without power does nothing. Safe. -/
  | powerRemoved
deriving DecidableEq, Repr

/-- Why an instruction has no meaning. -/
inductive Refusal where
  /-- Raised by an arm of `exec` that is not written yet. Safe. -/
  | notModelled (mnemonic : String)
deriving DecidableEq, Repr

/-- No bundle in issue. -/
def Issue.none : Issue := ⟨.ctx 0 0, 0, 0, 0, Ctx.launch, TileMem.reset, [], [], false⟩

/-- The machine right after reset. -/
def State.reset : State :=
  { agenda := [], focus := .tile 0, issue := Issue.none, tiles := Vector.replicate 384 Tile.reset,
    drovers := Vector.replicate 64 Drover.reset, mem := MemSys.reset, ports := Vector.replicate 2 Port.reset,
    slots := Vector.replicate 64 QueueSlot.reset, fns := Vector.replicate 17 Fn.reset, dev := DevRegs.reset, pads := [],
    buffers := [], kept := [], out := [], faults := [],
    calls := [], serial := 0,
    fresh := 0 }

end Sys2Proof.Machine
end

