-- ==== Sys2Proof/Machine/Ops.lean ====
section
/-!
DEFINITION. The named operations over the state: tiles, contexts and registers, results in flight (R128), the
CSR file (R127, R224, R317), taking a trap (R319) and returning from one (R324).
-/
namespace Sys2Proof

/-- The tile of an agent; a drover thread has none. -/
def Agent.tile? : Agent → Option TileId
  | .ctx t _ => some t
  | .drover _ => none

/-- The context number that ctx.id shows; a drover thread shows its thread number (R127, R157). -/
def Agent.number : Agent → Nat
  | .ctx _ c => c.val
  | .drover n => n.val

def Agent.isDrover : Agent → Bool
  | .ctx _ _ => false
  | .drover _ => true

end Sys2Proof

namespace Sys2Proof.Machine

/-- What a meaning answers. -/
abbrev Out := Host.Outcome State Fault Refusal

/-- A write of a device register: ignored until bring-up has set ready (R361). -/
def State.hostWrite (s : State) (f : State → State) : Out := .next (if s.dev.ready then f s else s)

/-! Tiles, contexts, drover threads. -/

def State.tile (s : State) (t : TileId) : Tile := s.tiles[t]

def State.modTile (s : State) (t : TileId) (f : Tile → Tile) : State :=
  { s with tiles := s.tiles.set t (f (s.tile t)) }

def State.drover (s : State) (n : SlotId) : Drover := s.drovers[n]

def State.modDrover (s : State) (n : SlotId) (f : Drover → Drover) : State :=
  { s with drovers := s.drovers.set n (f (s.drover n)) }

def Tile.ctx (t : Tile) (c : Fin 4) : Ctx := t.ctxs[c]

def Tile.modCtx (t : Tile) (c : Fin 4) (f : Ctx → Ctx) : Tile := { t with ctxs := t.ctxs.set c (f (t.ctx c)) }

/-- The registers of a context or drover thread. -/
def State.ctx (s : State) : Agent → Ctx
  | .ctx t c => (s.tile t).ctx c
  | .drover n => (s.drover n).ctx

def State.modCtx (s : State) (g : Agent) (f : Ctx → Ctx) : State :=
  match g with
  | .ctx t c => s.modTile t (·.modCtx c f)
  | .drover n => s.modDrover n fun d => { d with ctx := f d.ctx }

/-- The cycle count of whoever issues: the tile's (R127) or the drover thread's (R157). -/
def State.now (s : State) : Agent → Nat
  | .ctx t _ => (s.tile t).cycle
  | .drover n => (s.drover n).cycle

/-- A paddock by number. -/
def State.pad? (s : State) (p : Nat) : Option Paddock := s.pads.find? fun k => k.pid = p

def State.modPad (s : State) (p : Nat) (f : Paddock → Paddock) : State :=
  { s with pads := s.pads.map fun k => if k.pid = p then f k else k }

/-- What the tiles of a tile's paddock exchange. -/
def State.modNet (s : State) (t : TileId) (f : PadNet → PadNet) : State :=
  match (s.tile t).pad with
  | some p => s.modPad p fun k => { k with net := f k.net }
  | none => s

/-- The tile of a number. -/
def tileOf (n : Nat) : TileId := Fin.ofNat 384 n

/-- The tile of a rank of a paddock (R58). -/
def Paddock.tile (p : Paddock) (rank : Nat) : TileId := tileOf ((p.orow + rank / p.cols) * 24 + p.ocol + rank % p.cols)

/-- The tile of a rank of a numbered paddock. -/
def State.rankTile (s : State) (p rank : Nat) : TileId :=
  match s.pad? p with
  | some k => k.tile rank
  | none => 0

/-- The tile of a rank of a paddock changed, in its place or in the image of a curtained paddock. -/
def State.modRank (s : State) (p rank : Nat) (f : Tile → Tile) : State :=
  match s.pad? p with
  | none => s
  | some k =>
    match k.image with
    | some _ => s.modPad p fun k => { k with image := k.image.map fun i => { i with tiles := setAt i.tiles rank f } }
    | none => s.modTile (k.tile rank) f

/-- A paddock that stands on its tiles. What its tiles exchange rests while its image is saved (R305, R332). -/
def State.standing (s : State) (p : Nat) : Bool :=
  match s.pad? p with
  | some k => k.image.isNone
  | none => false

/-! Slots, functions, and what is sent to the outside. -/

def State.slot (s : State) (n : SlotId) : QueueSlot := s.slots[n]
def State.modSlot (s : State) (n : SlotId) (f : QueueSlot → QueueSlot) : State :=
  { s with slots := s.slots.set n (f (s.slot n)) }

def State.fn (s : State) (f : Fin 17) : Fn := s.fns[f]
def State.modFn (s : State) (f : Fin 17) (g : Fn → Fn) : State := { s with fns := s.fns.set f (g (s.fn f)) }

def State.emit (s : State) (l : List OutMsg) : State := { s with out := s.out ++ l }

/-- A message of a function's vector. One whose vectors are masked is dropped (R53): no rule keeps it pending (log 84). -/
def State.msix (s : State) (f : Fin 17) (vec : Nat) : State := if (s.fn f).masked then s else s.emit [.msix f.val vec]

/-- The queue halts (R44). -/
def State.haltQueue (s : State) (n : SlotId) (err idx : Nat) : State :=
  (s.modSlot n fun q => { q with halted := true, err := BitVec.ofNat 5 err, epkt := BitVec.ofNat 64 idx }).msix 0 0

/-! Registers. -/

/-- A predicate source: p0 reads true (R93). -/
def Bank.pred (b : Bank) (n : Fin 16) : Bool :=
  if n.val = 0 then true else if n.val < 8 then b.p.getLsbD n.val else b.s.getLsbD (n.val - 8)

/-- x0 reads zero (R93). -/
def Bank.xr (b : Bank) (n : Fin 32) : Word := if n = 0 then 0 else b.x[n]

/-- One bit of a byte replaced. -/
def setBit8 (v : BitVec 8) (n : Nat) (b : Bool) : BitVec 8 :=
  if b then v ||| (1 <<< n : BitVec 8) else v &&& ~~~(1 <<< n : BitVec 8)

/-- A register write; writes to x0 and p0 are discarded (R93). -/
def Bank.write (b : Bank) : RegWrite → Bank
  | .x n v => if n = 0 then b else { b with x := b.x.set n v }
  | .v n v => { b with v := b.v.set n v }
  | .p n v =>
    if n.val = 0 then b
    else if n.val < 8 then { b with p := setBit8 b.p n.val v }
    else { b with s := setBit8 b.s (n.val - 8) v }
  | .none => b

/-- Flags joined into a status register; sat never in fp.sst, dz never in fp.mst (R224, R225). -/
def FpRegs.join (f : FpRegs) (u : FpUnit) (fl : Flags) : FpRegs :=
  match u with
  | .scalar => { f with sst := f.sst ||| (fl &&& 0x1F) }
  | .vector => { f with vst := f.vst ||| fl }
  | .matrix => { f with mst := f.mst ||| (fl &&& 0x37) }

/-- A result lands: register and flags together (R129, R141). -/
def Ctx.land (c : Ctx) (r : InFlight) : Ctx :=
  { c with bank := c.bank.write r.write, fp := c.fp.join r.unit r.flags }

/-- Every result whose latency has elapsed lands (R128). -/
def Ctx.landDue (c : Ctx) (now : Nat) : Ctx :=
  let c' := (c.flight.filter fun r => r.access.isNone && r.due ≤ now).foldl Ctx.land c
  { c' with flight := c.flight.filter fun r => !(r.access.isNone && r.due ≤ now) }

/-- The first cycle in which the divider is free (R128). -/
def Ctx.dividerFree (c : Ctx) (now : Nat) : Nat :=
  c.flight.foldl (fun m r => if r.divider then max m r.due else m) now

/-- A result put in flight, to land `lat` cycles after its issue, or after the divider's earlier work (R128). -/
def Ctx.result (c : Ctx) (now : Nat) (w : RegWrite) (fl : Flags) (u : FpUnit) (lat : Nat) (div : Bool) : Ctx :=
  let base := if div then c.dividerFree now else now
  { c with flight := c.flight ++ [⟨w, fl, u, base + lat, div, none⟩] }

/-- A result of the bundle in issue. -/
def State.result (s : State) (w : RegWrite) (fl : Flags) (u : FpUnit) (lat : Nat) (div : Bool := false) : State :=
  s.modCtx s.issue.agent fun c => c.result (s.now s.issue.agent) w fl u lat div

/-! The selector. -/

/-- The first ready context in the order c + 1, c + 2, c + 3 (R116). -/
def Tile.nextReady (t : Tile) (c : Fin 4) : Option (Fin 4) :=
  [c + 1, c + 2, c + 3].find? fun k => (t.ctx k).sel = .ready

/-- The running context gives up the tile (R116). -/
def Tile.giveUp (t : Tile) (c : Fin 4) : Tile :=
  if t.run = some c then { t with run := t.nextReady c, last := c } else t

/-- YIELD: the first other ready context, else the same one (R116). -/
def Tile.yield (t : Tile) (c : Fin 4) : Tile :=
  match t.nextReady c with
  | some k => { t with run := some k, last := c }
  | none => t

def Tile.setSel (t : Tile) (c : Fin 4) (x : Sel) : Tile := t.modCtx c fun k => { k with sel := x }

/-- A context blocks on an engine wait and gives up the tile (R116, R117). -/
def Tile.block (t : Tile) (c : Fin 4) : Tile := (t.setSel c .blocked).giveUp c

/-! Control and status registers. -/

/-- ctx.pred (R127). -/
def Bank.predImage (b : Bank) : Word := BitVec.ofNat 64 (b.p.toNat / 2 * 2 + 1 + 256 * b.s.toNat)

/-- A write of ctx.pred (R127). -/
def Bank.setPred (b : Bank) (w : Word) : Bank :=
  { b with p := BitVec.ofNat 8 (w.toNat % 256 / 2 * 2 + 1), s := BitVec.ofNat 8 (w.toNat / 256) }

/-- ctx.lpN.pos (R127). -/
def LoopEntry.pos (e : LoopEntry) : Word :=
  BitVec.ofNat 64 (pack [(1, 63), (e.closed.toNat, 62), (e.stages, 56), (e.stop % 2 ^ 14, 14), (e.start % 2 ^ 14, 0)])

/-- ctx.lpN.cnt (R127). -/
def LoopEntry.cnt (e : LoopEntry) : Word := BitVec.ofNat 64 (e.n % 2 ^ 32 * 2 ^ 32 + e.i % 2 ^ 32)

/-- Entry k of a loop stack counted from the bottom; zero where there is none (R127). -/
def loopReg (l : List LoopEntry) (k : Nat) (f : LoopEntry → Word) : Word :=
  match l.reverse[k]? with
  | some e => f e
  | none => 0

/-- ctx.trap.stat (R317). -/
def Ctx.trapStat (c : Ctx) : Word :=
  BitVec.ofNat 64 (pack [(c.trap.handling.toNat, 63), (c.trap.ovf.toNat, 62), (c.records.length % 32, 0)])

/-- Region-relative column and row, and rank, from the boundary register (R58, R60). -/
def Boundary.col (b : Boundary) (t : TileId) : Nat := t.val % 24 - b.ocol.toNat
def Boundary.row (b : Boundary) (t : TileId) : Nat := t.val / 24 - b.orow.toNat
def Boundary.rank (b : Boundary) (t : TileId) : Nat := b.row t * b.cols.toNat + b.col t
/-- cols × rows. -/
def Boundary.size (b : Boundary) : Nat := b.cols.toNat * b.rows.toNat
/-- The tile at a region-relative place (R58). -/
def Boundary.at_ (b : Boundary) (c r : Nat) : Nat := (b.orow.toNat + r) * 24 + b.ocol.toNat + c
/-- The tile of a rank (R58). -/
def Boundary.ofRank (b : Boundary) (k : Nat) : Nat := b.at_ (k % b.cols.toNat) (k / b.cols.toNat)

/-- Trap and floating-point registers (R224, R317). -/
def Ctx.ownCsr (c : Ctx) (k : Nat) : Word :=
  if k = 0x100 then c.trap.vec
  else if k = 0x101 then c.trap.cause
  else if k = 0x102 then c.trap.ret
  else if k = 0x103 then c.trap.src
  else if k = 0x104 then c.trap.info0
  else if k = 0x105 then c.trap.info1
  else if k = 0x106 then c.trap.pred
  else if k = 0x107 then c.trapStat
  else if k = 0x108 then (if c.trap.keep.isSome then 1#64 <<< 63 else 0)
  else if k = 0x10A then loopReg c.trap.loops 0 LoopEntry.pos
  else if k = 0x10B then loopReg c.trap.loops 1 LoopEntry.pos
  else if k = 0x10C then loopReg c.trap.loops 0 LoopEntry.cnt
  else if k = 0x10D then loopReg c.trap.loops 1 LoopEntry.cnt
  else if k = 0x200 then c.fp.sst.setWidth 64
  else if k = 0x201 then c.fp.vst.setWidth 64
  else if k = 0x202 then c.fp.mst.setWidth 64
  else if k = 0x203 then (c.fp.sst ||| c.fp.vst ||| c.fp.mst).setWidth 64
  else if k = 0x204 then c.fp.win.setWidth 64
  else if k = 0x008 then c.bank.predImage
  else if k = 0x010 then loopReg c.bank.loops 0 LoopEntry.pos
  else if k = 0x011 then loopReg c.bank.loops 0 LoopEntry.cnt
  else if k = 0x012 then loopReg c.bank.loops 1 LoopEntry.pos
  else if k = 0x013 then loopReg c.bank.loops 1 LoopEntry.cnt
  else if k = 0x002 then c.arg
  else if k = 0x003 then c.node.setWidth 64
  else if k = 0x031 then BitVec.ofNat 64 c.issued
  else 0

/-- Registers of the tile (R127). -/
def State.tileCsr (s : State) (t : TileId) (c : Fin 4) (k : Nat) : Word :=
  let T := s.tile t
  let b := T.mem.bnd
  if k = 0x004 then (if T.lead = some c then 1 else 0)
  else if k = 0x020 then BitVec.ofNat 64 (b.col t)
  else if k = 0x021 then BitVec.ofNat 64 (b.row t)
  else if k = 0x022 then BitVec.ofNat 64 (b.rank t)
  else if k = 0x023 then T.stage.setWidth 64
  else if k = 0x024 then b.cols.setWidth 64
  else if k = 0x025 then b.rows.setWidth 64
  else if k = 0x028 then T.scene.setWidth 64
  else if 0x40 ≤ k ∧ k < 0x80 then (T.pr.cond.toList.getD (k - 0x40) 0).setWidth 64
  else 0

/-- Whether a number is a register of the tile and not of the context. -/
def tileCsrNumber (k : Nat) : Bool := k == 4 || (0x20 ≤ k && k ≤ 0x28) || (0x40 ≤ k && k < 0x80)

/-- A CSR as it stood before the bundle (R127, R156). -/
def State.csr (s : State) (k : Nat) : Word :=
  if k = 0 then BitVec.ofNat 64 s.issue.agent.number
  else if k = 1 then BitVec.ofNat 64 s.issue.hdr
  else if k = 0x30 then BitVec.ofNat 64 (s.now s.issue.agent)
  else
    match s.issue.agent with
    | .ctx t c => if tileCsrNumber k then s.tileCsr t c k else s.issue.ctx.ownCsr k
    | .drover _ => s.issue.ctx.ownCsr k

/-- A CSR write; RO registers ignore it (R5), R318 gates the trap registers. -/
def Ctx.setCsr (c : Ctx) (k : Nat) (w : Word) : Ctx :=
  if k = 0x008 then { c with bank := c.bank.setPred w }
  else if k = 0x100 then { c with trap := { c.trap with vec := w &&& 0x8000000000003FFF } }
  else if k = 0x102 then
    (if c.trap.handling then { c with trap := { c.trap with ret := w &&& 0x3FFF } } else c)
  else if k = 0x106 then
    (if c.trap.handling then { c with trap := { c.trap with pred := (w &&& 0xFFFE) ||| 1 } } else c)
  else if k = 0x107 then
    (if w.getLsbD 62 then { c with trap := { c.trap with ovf := false } } else c)
  else if k = 0x108 then
    (if c.trap.handling && w.getLsbD 63 then { c with trap := { c.trap with keep := none } } else c)
  else if k = 0x200 then { c with fp := { c.fp with sst := w.setWidth 6 &&& 0x1F } }
  else if k = 0x201 then { c with fp := { c.fp with vst := w.setWidth 6 } }
  else if k = 0x202 then { c with fp := { c.fp with mst := w.setWidth 6 &&& 0x37 } }
  else c

/-- The rank of a tile in its paddock (R58). -/
def State.rank (s : State) (t : TileId) : Nat := (s.tile t).mem.bnd.rank t

/-! Traps and system faults. -/

/-- A fresh value for a point that the spec leaves open (log 5). -/
def State.freshWord (s : State) : BitVec 64 × State := (Config.freeWord s.fresh, { s with fresh := s.fresh + 1 })

/-- A value that a rule states, or a fresh one where none does (log 5). -/
def State.orFresh (s : State) : Option Nat → BitVec 64 × State
  | some v => (BitVec.ofNat 64 v, s)
  | none => s.freshWord

/-- The record of a system fault of a context enters the way to the drover: rank, context, ctx.pc and info words (R325). -/
def State.reportFault (s : State) (t : TileId) (c : Fin 4) (code pc : Nat) (i0 i1 : Word) : State :=
  let T := s.tile t
  { s with faults := s.faults ++ [⟨code, T.pad, T.mem.bnd.rank t, some c, pc, i0, i1⟩] }

/-- The token-target faults that a context owes: one waits for the results that were in flight when its bundle had ended, and
is recorded once they have landed (R129, R325; log 99). -/
def State.reportOwed (s : State) (t : TileId) (c : Fin 4) : State :=
  let k := (s.tile t).ctx c
  if k.owed.isEmpty then s
  else
    let l := k.owed.map fun o => (o.1.getD k.flight, o.2)
    let due (o : List InFlight × Nat × Word × Word) : Bool := o.1.all fun r => !k.flight.contains r
    let s := (l.filter due).foldl (fun s o => s.reportFault t c 0x25 o.2.1 o.2.2.1 o.2.2.2) s
    s.modTile t (·.modCtx c fun k => { k with owed := (l.filter fun o => !due o).map fun o => (some o.1, o.2) })

/-- A system fault that waited for results in flight is recorded once they have all landed (R129). -/
def State.reportDue (s : State) (t : TileId) (c : Fin 4) : State :=
  let s := s.reportOwed t c
  let k := (s.tile t).ctx c
  match k.fault with
  | some f =>
    if k.flight.isEmpty then
      (s.reportFault t c f.1 k.pc f.2.1 f.2.2).modTile t (·.modCtx c fun k => { k with fault := none })
    else s
  | none => s

/-- A system fault stops what raised it, and its record goes to the drover once every result of the context in flight
has landed (R116, R129, R325). A double trap or a missing handler of a drover thread halts the thread, and
its queue with err 8 at the packet in hand (R44, R327; log 100). -/
def State.sysFault (s : State) (g : Agent) (code : Nat) (info0 info1 : Option Nat := none) : State :=
  match g with
  | .drover n =>
    let s := (s.modDrover n fun d => { d with halted := true }).emit [.log 0x27 n.val]
    s.haltQueue n 8 (((s.slot n).taken.map (·.idx)).getD (s.slot n).next)
  | .ctx t c =>
    let (i0, s) := s.orFresh info0
    let (i1, s) := s.orFresh info1
    let k := (s.tile t).ctx c
    let s := if k.flight.isEmpty then s.reportFault t c code k.pc i0 i1
      else s.modTile t (·.modCtx c fun k => { k with fault := some (code, i0, i1) })
    s.modTile t fun T =>
      (T.modCtx c fun k => { k with sel := .stopped, held := true, pending := none, ask := none }).giveUp c

/-- System fault 0x25 of a TOKEN stops nothing: its context goes on, and owes the record until the results in flight when
its bundle has ended have landed, those of the bundle itself among them (R129, R325; log 99). Its second information word
is free (log 5). -/
def State.oweToken (s : State) (info0 : Word) : State :=
  let (i1, s) := s.freshWord
  s.modCtx s.issue.agent fun k => { k with owed := k.owed ++ [(none, k.pc, info0, i1)] }

/-- ctx.trap.cause (R317). -/
def TrapReq.cause (q : TrapReq) : Word :=
  BitVec.ofNat 64 (pack [(q.isRec.toNat, 63), (q.slot % 256, 8), (q.code % 256, 0)])

/-- A context stops (R328): what it asks a home slice for is withdrawn unless it is decided (R189). -/
def Ctx.stop (c : Ctx) : Ctx := { c with sel := .stopped, ask := c.ask.filter fun a => a.answer.isSome }

/-- The stop of a context under a pending curtain (R328). -/
def State.stopAt (s : State) (t : TileId) (c : Fin 4) : State := s.modTile t fun T => (T.modCtx c Ctx.stop).giveUp c

/-- A context blocks on a wait and gives up the tile; under a pending curtain it stops (R116, R117, R328). -/
def State.blockAt (s : State) (t : TileId) (c : Fin 4) : State :=
  if (s.tile t).stopReq then s.stopAt t c else s.modTile t (·.block c)

/-- What delivery writes (R319); a panel-scoreboard stall of the abandoned bundle is over (R252). -/
def Ctx.enter (c : Ctx) (q : TrapReq) : Ctx :=
  { c with
    trap := { c.trap with
      cause := q.cause, ret := BitVec.ofNat 64 (q.ret % 2 ^ 14), src := BitVec.ofNat 64 (q.src % 2 ^ 14), info0 := q.info0, info1 := q.info1,
      pred := c.bank.predImage, loops := c.bank.loops, handling := true, queue := q.queue },
    bank := { c.bank with loops := [] },
    pc := c.trap.vec.toNat % 2 ^ 14,
    src := q.ret,
    pending := none,
    stall := 0,
    ask := none }

/-- A delivery under a pending curtain is a point: the context stops at its vector (R328, R331). -/
def State.pointAt (s : State) : Agent → State
  | .ctx t c => if (s.tile t).stopReq then s.stopAt t c else s
  | .drover _ => s

/-- Deliver of R319, once no result of the context is in flight. -/
def State.deliver (s : State) (g : Agent) (q : TrapReq) : State :=
  let c := s.ctx g
  if c.trap.handling then s.sysFault g 0x26
  else if c.trap.vec.getLsbD 63 = false then s.sysFault g 0x27
  else (s.modCtx g (·.enter q)).pointAt g

/-- A precise trap: delivered at once, or when the results in flight have landed (R319). -/
def State.raise (s : State) (g : Agent) (q : TrapReq) : State :=
  if (s.ctx g).flight.isEmpty then s.deliver g q else s.modCtx g fun c => { c with pending := some q }

/-- The restored state of ERET's steps 4 and 5 (R324). -/
def Ctx.leave (c : Ctx) : Ctx :=
  { c with
    bank := { c.bank.setPred c.trap.pred with loops := c.trap.loops },
    trap := { c.trap with handling := false, queue := none } }

/-- A record enters the pending queue; one that finds 16 is lost, but for a copy-fault record (R322). -/
def Ctx.record (c : Ctx) (q : TrapReq) : Ctx :=
  if q.queue.isNone && 16 ≤ (c.records.filter fun r => r.queue.isNone).length then
    { c with trap := { c.trap with ovf := true } }
  else { c with records := c.records ++ [q] }

/-- A record of R323 for a context. -/
def State.sendRecord (s : State) (t : TileId) (c : Fin 4) (code info0 info1 : Nat)
    (queue : Option (Fin 4) := none) (entry : Option Nat := none) : State :=
  s.modCtx (.ctx t c) (·.record ⟨code, true, 0xFF, 0, 0, BitVec.ofNat 64 info0, BitVec.ofNat 64 info1, queue, entry⟩)

end Sys2Proof.Machine
end

