-- ==== Sys2Proof/Machine/Scratch.lean ====
section
/-!
DEFINITION. The scratchpad through windows (R160), its reserved ranges (R161), counters (R172), ring entries
(R162, R163), and the operands of the bundle in issue as they stood before it (R130, R283).
-/
namespace Sys2Proof.Machine

/-- The absolute offset of byte `off` of a window (R160). -/
def Window.addr (w : Window) (off : Int) : Nat := (w.base.toNat + wrapTo off w.size.toNat) % 2 ^ 20

/-- The absolute offsets of `n` bytes at a window offset (R160). -/
def Window.addrs (w : Window) (off : Int) (n : Nat) : List Nat := tab n fun j => w.addr (off + (j : Int))

/-- Bytes of a sparse byte store. -/
def readAll (m : Sparse Byte) (l : List Nat) : List Byte := l.map (Sparse.get 0 m)

/-- SpRd (R175): bytes through a window, little-endian. -/
def spRead (m : Sparse Byte) (w : Window) (off : Int) (n : Nat) : Nat := ofBytes (readAll m (w.addrs off n))

/-- Offsets of the constant window (R161). -/
def inConst (a : Nat) : Bool := 0xE0000 ≤ a && a < 0xF0000
/-- Offsets of the counter window (R161). -/
def inCounters (a : Nat) : Bool := 0xFF000 ≤ a

/-- Writing a unit makes its error go (R326). -/
def clearPoison (p : List Nat) (l : List Nat) : List Nat := p.filter fun u => !(l.any fun a => a / 8 == u)

def TileMem.put (m : TileMem) (l : List (Nat × Byte)) : TileMem :=
  { m with spad := Sparse.puts 0 m.spad l, poison := clearPoison m.poison (l.map (·.1)) }

/-- What a context's store changes: nothing in the constant window, and of a counter only all 8 bytes (R161). -/
def storeKept (l : List (Nat × Byte)) : List (Nat × Byte) :=
  l.filter fun p =>
    !inConst p.1 && (!inCounters p.1 || (List.range 8).all fun j => l.any fun q => q.1 == p.1 / 8 * 8 + j)

/-- A context's store of bytes at absolute offsets, in order (R161, R179). -/
def TileMem.store_ (m : TileMem) (l : List (Nat × Byte)) : TileMem := m.put (storeKept l)

/-- An engine's write of bytes: neither constants nor counters change (R161). -/
def TileMem.engineStore (m : TileMem) (l : List (Nat × Byte)) : TileMem :=
  m.put (l.filter fun p => !inConst p.1 && !inCounters p.1)

/-- SpWr (R175) of a context: the low `n` bytes of `v`. -/
def spWrite (m : TileMem) (w : Window) (off : Int) (n v : Nat) : TileMem :=
  m.store_ ((w.addrs off n).zip (bytesOf n v))

/-- The offsets of counter k (R161). -/
def counterAddrs (k : Nat) : List Nat := tab 8 fun j => 0xFF000 + 8 * (k % 512) + j

/-- Local counter k (R161). -/
def TileMem.counter (m : TileMem) (k : Nat) : Word := BitVec.ofNat 64 (ofBytes (readAll m.spad (counterAddrs k)))

def TileMem.setCounter (m : TileMem) (k : Nat) (v : Word) : TileMem :=
  m.put ((counterAddrs k).zip (bytesOf 8 v.toNat))

/-- A completion add, modulo 2^64 (R172, R203). -/
def TileMem.addCounter (m : TileMem) (k : Nat) (v : Word) : TileMem := m.setCounter k (m.counter k + v)

def State.modMem (s : State) (t : TileId) (f : TileMem → TileMem) : State :=
  s.modTile t fun T => { T with mem := f T.mem }

/-! Rings. -/

def Ring.bytes (r : Ring) : Nat := 2 ^ r.esz.toNat
def Ring.entries (r : Ring) : Nat := 2 ^ r.lsize.toNat

/-- The offset of entry i (R162). -/
def Ring.entryAt (r : Ring) (i : Nat) : Nat := (r.base.toNat + i % r.entries * r.bytes) % 2 ^ 20

/-- Absolute offsets of `n` bytes from entry `i` onward (R163). -/
def Ring.addrs (r : Ring) (i n : Nat) : List Nat := tab n fun j => r.entryAt (i + j / r.bytes) + j % r.bytes

/-- Entries that an operand of n bytes takes (R163). -/
def Ring.need (r : Ring) (n : Nat) : Nat := max 1 ((n + r.bytes - 1) / r.bytes)

/-- Entries filled and not popped. -/
def Ring.filled (r : Ring) : Nat := (r.prod - r.rd).toNat

/-- Room for producers: 2^lsize − (res − rel). -/
def Ring.room (r : Ring) : Nat := r.entries - (r.res - r.rel).toNat

def Bank.ring (b : Bank) (q : Fin 16) : Ring := b.q[q]
def Bank.modRing (b : Bank) (q : Fin 16) (f : Ring → Ring) : Bank := { b with q := b.q.set q (f (b.ring q)) }
def Bank.handle (b : Bank) (h : Fin 16) : Handle := b.h[h]
def Bank.modHandle (b : Bank) (h : Fin 16) (f : Handle → Handle) : Bank := { b with h := b.h.set h (f (b.handle h)) }
def Bank.window (b : Bank) (w : Fin 8) : Window := b.w[w]
def Bank.panel (b : Bank) (a : Fin 4) : Panel := b.a[a]
def Bank.modPanel (b : Bank) (a : Fin 4) (f : Panel → Panel) : Bank := { b with a := b.a.set a (f (b.panel a)) }
def Bank.scale (b : Bank) (k : Bool) : List ScaleEntry := if k then b.sqb else b.sqa
def Bank.setScale (b : Bank) (k : Bool) (l : List ScaleEntry) : Bank :=
  if k then { b with sqb := l } else { b with sqa := l }

def Ctx.modBank (c : Ctx) (f : Bank → Bank) : Ctx := { c with bank := f c.bank }

/-- The bank of the issuing context, as the bundle's writes leave it. -/
def State.modBank (s : State) (f : Bank → Bank) : State := s.modCtx s.issue.agent (·.modBank f)

/-- The bank as it stood before the bundle. -/
def State.bank (s : State) : Bank := s.issue.ctx.bank

/-! Memory through handles. -/

/-- The parts of n bytes at a physical address, each within an aligned 8-byte unit (R285); `at_` counts in the
access's data. The fuel bounds the number of parts. -/
def piecesFrom (nalloc : Bool) (d : Fin 8) (first : Bool) : Nat → Nat → Nat → Nat → List Piece
  | 0, _, _, _ => []
  | fuel + 1, pa, at_, n =>
    if n = 0 then []
    else
      let k := min n (8 - pa % 8)
      ⟨pa, at_, k, false, nalloc, d, first⟩ :: piecesFrom nalloc d first fuel (pa + k) (at_ + k) (n - k)

/-- The physical address of an offset through a handle (R166). -/
def Handle.pa (h : Handle) (off : Nat) : Nat := h.frame.toNat * 2 ^ 16 + off

/-- The domain of a handle's page (R69, R166). -/
def Handle.dom (h : Handle) : Fin 8 := Fin.ofNat 8 h.home.toNat

/-- A handle of a first-touch page, whose regions are homed at slices of no domain (R70). -/
def Handle.first (h : Handle) : Bool := h.home == 8

/-- The parts of n bytes at an offset through a handle (R285). -/
def Handle.pieces (h : Handle) (off n : Nat) : List Piece := piecesFrom h.nalloc h.dom h.first (n / 8 + 2) (h.pa off) 0 n

/-! Operands, as they stood before the bundle (R130). -/

/-- The value popped for a field of the syllable now performing (R97). -/
def State.popped (s : State) (f : Nat) : Nat :=
  match s.issue.pops.find? fun p => p.slot = s.issue.slot && p.field = f with
  | some p => p.value
  | none => 0

/-- X(f): the register, or the 64-bit value popped (R128). -/
def State.X (s : State) (f : Nat) : Src → Word
  | .reg n => s.bank.xr n
  | .pop _ => BitVec.ofNat 64 (s.popped f)

/-- V(f). -/
def State.V (s : State) (f : Nat) : Src → VReg
  | .reg n => s.bank.v[n]
  | .pop _ => BitVec.ofNat 2048 (s.popped f)

/-- P(f) (R93). -/
def State.P (s : State) (n : Fin 16) : Bool := s.bank.pred n

/-- A matrix operand taken at issue (R254): a panel, or the popped entries of a ring. -/
def State.M (s : State) (f : Nat) : MSrc → MOperand
  | .panel n => .panel n
  | .pop q =>
    match s.issue.pops.find? fun p => p.slot = s.issue.slot && p.field = f with
    | some p => .ring q p.ring p.k
    | none => .ring q (s.bank.ring q) 0

/-- Whether a syllable's guard is true (R96); a step of the hardware has none. -/
def State.guardTrue (s : State) (i : Instr) : Bool :=
  match i.guard? with
  | some g => s.P g.idx != g.neg
  | none => true

/-- The tile of the bundle in issue; a drover thread has none. -/
def State.homeTile (s : State) : TileId := (s.issue.agent.tile?).getD 0

def State.here (s : State) : Tile := s.tile s.homeTile

end Sys2Proof.Machine
end

