-- ==== Sys2Proof/Machine/Records.lean ====
section
/-!
DEFINITION. The records that copy instructions name in scratchpad (R194 to R196, R274), and the timetable entries
of the links (R309).
-/
namespace Sys2Proof.Machine

/-- What the checks of a record answer (R196): an illegal operand, a route fault, or the record. -/
inductive Parsed (α : Type) where
  | illegal
  | route
  | ok (a : α)
deriving Repr

/-- A virtual address: 55 bits (R62). -/
def isVA (v : Nat) : Bool := v < 2 ^ 55

/-- The bits of words 0 to 3 that a record's direction and counter place leave unused are zero, and its values are
in range (R194, R196). -/
def copyFieldsOk (w0 w1 w2 w3 : Nat) : Bool :=
  let dir := fld w0 61 3
  let swin := fld w0 57 3
  let dwin := fld w0 54 3
  let etype := fld w0 52 2
  let cplace := fld w0 50 2
  let cidx := fld w0 41 9
  let crank := fld w0 32 9
  let len := fld w0 0 32
  let es := if etype = 1 then 2 else 4
  dir ≤ 5 && 1 ≤ len && len ≤ 0x1000000 &&
  (dir == 1 || dir == 2 || dir == 5 || swin == 0) && (dir == 0 || dir == 3 || dwin == 0) &&
  (if dir == 5 then etype ≤ 1 else etype == 0) &&
  (cplace == 1 || cplace == 2 || cidx == 0) && (cplace == 2 || crank == 0) && (cplace != 0 || !bit w0 60) &&
  (if dir == 0 || dir == 4 then isVA w1 else if dir == 3 then w1 < 2 ^ 17 else w1 < 2 ^ 32) &&
  (if dir == 1 || dir == 5 then isVA w2 else if dir == 2 then w2 < 2 ^ 16
   else if dir == 4 then w2 < 2 ^ 28 else w2 < 2 ^ 32) &&
  (if cplace == 3 then isVA w3 && w3 % 8 == 0 else w3 == 0) &&
  (!(dir == 2 || dir == 4) || len % 128 == 0) && (dir != 4 || fld w2 0 10 + len / 128 ≤ 1024) &&
  (dir != 3 || w1 + len ≤ 0x20000) && (dir != 5 || (len % es == 0 && w1 % es == 0 && w2 % es == 0))

/-- A tile address outside the paddock (R58, R196). -/
def copyRouteBad (b : Boundary) (w0 w2 : Nat) : Bool :=
  (fld w0 50 2 == 2 && b.size ≤ fld w0 32 9) ||
  (fld w0 61 3 == 4 &&
    (b.cols.toNat < fld w2 10 5 + fld w2 19 5 + 1 || b.rows.toNat < fld w2 15 4 + fld w2 24 4 + 1))

/-- The copy that words 0 to 3 name, with the windows as they stand (R194, R196). -/
def copyOf (win : Nat → Window) (w0 w1 w2 w3 : Nat) : CopyRec :=
  { dir := fld w0 61 3, one := bit w0 60, swin := win (fld w0 57 3), dwin := win (fld w0 54 3),
    bf16 := fld w0 52 2 == 1, cplace := fld w0 50 2, cidx := fld w0 41 9, crank := fld w0 32 9,
    len := fld w0 0 32, src := w1, dst := w2, cva := w3 }

/-- Word k of a record read through a window (R194). -/
def recWord (m : Sparse Byte) (w : Window) (off : Nat) (k : Nat) : Nat := spRead m w (off + 8 * k : Nat) 8

/-- The checks of a copy record (R196). -/
def parseCopy (m : Sparse Byte) (w : Window) (win : Nat → Window) (b : Boundary) (dirs : Nat → Bool)
    (off : Nat) : Parsed CopyRec :=
  let wd := recWord m w off
  if off % 64 ≠ 0 then .illegal
  else if !(copyFieldsOk (wd 0) (wd 1) (wd 2) (wd 3) && dirs (fld (wd 0) 61 3) &&
      wd 4 == 0 && wd 5 == 0 && wd 6 == 0 && wd 7 == 0) then .illegal
  else if copyRouteBad b (wd 0) (wd 2) then .route
  else .ok (copyOf win (wd 0) (wd 1) (wd 2) (wd 3))

/-- The checks of a sequencer record (R195, R196). -/
def parseSeq (m : Sparse Byte) (w : Window) (win : Nat → Window) (b : Boundary) (off : Nat) : Parsed SeqRec :=
  let wd := recWord m w off
  if off % 128 ≠ 0 then .illegal
  else if !(copyFieldsOk (wd 0) (wd 1) (wd 2) (wd 3) && wd 5 < 2 ^ 36 &&
      wd 12 == 0 && wd 13 == 0 && wd 14 == 0 && wd 15 == 0) then .illegal
  else if copyRouteBad b (wd 0) (wd 2) then .route
  else .ok
    { copy := copyOf win (wd 0) (wd 1) (wd 2) (wd 3),
      counts := [fld (wd 4) 0 16 + 1, fld (wd 4) 16 16 + 1, fld (wd 4) 32 16 + 1, fld (wd 4) 48 16 + 1,
        fld (wd 5) 0 16 + 1, fld (wd 5) 16 16 + 1],
      skew := fld (wd 5) 32 4,
      sstride := tab 6 fun k => sext 32 (wd (6 + k)),
      dstride := tab 6 fun k => sext 32 (wd (6 + k) / 2 ^ 32) }

/-- The checks of a PGCAST record (R274). -/
def parsePage (m : Sparse Byte) (w : Window) (off : Nat) : Parsed CopyWork :=
  let wd := recWord m w off
  let w0 := wd 0
  let len := fld w0 0 32
  if off % 64 ≠ 0 then .illegal
  else if fld w0 52 11 ≠ 0 ∨ fld w0 32 9 ≠ 0 ∨ 2 ≤ fld w0 50 2 ∨ (fld w0 50 2 = 0 ∧ fld w0 41 9 ≠ 0) ∨
      len % 128 ≠ 0 ∨ len < 128 ∨ 0xFF80 < len ∨ (wd 1) % 128 ≠ 0 ∨ !isVA (wd 1) ∨ 2 ^ 24 ≤ wd 2 ∨
      (List.range 5).any (fun k => wd (3 + k) != 0) then .illegal
  else .ok (.page (bit w0 63) (fld w0 50 2 == 1) (fld w0 41 9) len (wd 1) (fld (wd 2) 0 16) (fld (wd 2) 16 8))

/-! Timetable entries (R309). -/

def ttValid (e : Nat) : Bool := bit e 63
def ttSide (e : Nat) : Bool := bit e 62
def ttStream (e : Nat) : Nat := fld e 56 6
def ttSrank (e : Nat) : Nat := fld e 47 9
def ttDrank (e : Nat) : Nat := fld e 38 9
def ttSctx (e : Nat) : Nat := fld e 36 2
def ttDctx (e : Nat) : Nat := fld e 34 2
def ttFlits (e : Nat) : Nat := fld e 29 5 + 1

/-- The entry format of R309. -/
def ttFormed (e : Nat) : Bool := if ttValid e then ttFlits e ≤ 16 && fld e 0 29 == 0 else e == 0

def Port.period (p : Port) : Nat := p.plen.toNat + 1
def Port.entry (p : Port) (k : Nat) : Nat := (Sparse.get 0 p.table k).toNat

/-- The first valid entry of a stream within the period: all of them agree on side, ranks and contexts (R308). -/
def Port.streamEntry (p : Port) (stream : Nat) : Option Nat :=
  ((p.table.filter fun q => q.1 < p.period && ttValid q.2.toNat && ttStream q.2.toNat == stream).head?).map
    fun q => q.2.toNat

def State.port (s : State) (k : Bool) : Port := if k then s.ports[1] else s.ports[0]
def State.modPort (s : State) (k : Bool) (f : Port → Port) : State :=
  if k then { s with ports := s.ports.set 1 (f s.ports[1]) } else { s with ports := s.ports.set 0 (f s.ports[0]) }

end Sys2Proof.Machine
end

