-- ==== Sys2Proof/Machine/Registers.lean ====
section
/-!
DEFINITION. What reads of the device's registers return (R5, R34, R35, R45, R308, R342, R344, R358, R360 to R362).
-/
namespace Sys2Proof.Machine

/-! Power (R2, R358 to R360). -/

/-- The clock of a mode in MHz: the ceiling (R2, R359). -/
def ceiling (mode : BitVec 2) : Nat := if mode = 0 then 1400 else if mode = 1 then 1900 else 2200
/-- The module power limit of a mode in W (R2). -/
def powerLimit (mode : BitVec 2) : Nat := if mode = 0 then 350 else if mode = 1 then 600 else 750
def floorClk : Nat := 1400

/-- dev.therm.throttled (R360): clk is below the ceiling. -/
def DevRegs.throttled (d : DevRegs) : Bool := decide (d.clk < ceiling d.cur)

/-- dev.pwr (R358). -/
def DevRegs.pwrWord (d : DevRegs) : Nat :=
  pack [(d.clk % 2 ^ 16, 32), (powerLimit d.cur, 16), (d.pwrBusy.toNat, 7), (d.cur.toNat, 2), (d.req.toNat, 0)]

/-- dev.therm (R360). -/
def DevRegs.thermWord (d : DevRegs) : Nat :=
  pack [(d.tj.toNat, 40), (d.tpeak.toNat, 32), (d.power.toNat, 16), (d.throttled.toNat, 2), (d.pthr.toNat, 1), (d.tthr.toNat, 0)]

/-- dev.boot (R362). -/
def DevRegs.bootWord (d : DevRegs) : Nat :=
  pack [(d.ready.toNat, 63), (d.stage.toNat, 48), (d.fwver.toNat, 32), (d.err.toNat, 0)]

/-! Degradation (R344). -/

/-- dev.health.why (R344). -/
def State.why (s : State) : Nat :=
  (s.dev.absent != 0).toNat + 2 * (!s.mem.failing.isEmpty || s.mem.chans != 0).toNat + 4 * (s.dev.slices != 0).toNat +
    8 * (decide (1024 < s.dev.rows.length)).toNat

/-- dev.health, which the health information of the CXL mailbox reports too (R344). -/
def State.health (s : State) : Nat :=
  let w := s.why
  pack [((w != 0).toNat, 63), (s.dev.failed.length % 256, 48), (s.mem.chans % 128, 41), (s.dev.slices % 128, 34),
    (min (s.dev.ways.map (·.2)).sum 1023, 24), (min s.dev.rows.length 65535, 8), (w, 0)]

/-! Register groups (R35). -/

/-- The function registers; fn.proxy.reply is WO. -/
def Fn.readReg (f : Fn) (off : Nat) : Nat :=
  if off = 0 then f.cb.toNat
  else if off = 8 then f.base.toNat
  else if off = 0x10 then f.lsize.toNat
  else if off = 0x18 then f.owner.toNat
  else 0

/-- slot.ctl, slot.cb, slot.base, slot.stat and slot.epkt (R45). -/
def QueueSlot.readReg (q : QueueSlot) (r : Nat) : Nat :=
  if r = 0 then
    pack [(q.bound.toNat, 63), (q.fn.toNat, 58), (q.proc.toNat, 52), (q.cls.toNat, 50), (q.prio.toNat, 46),
      (q.lsize.toNat, 41), (q.owner.toNat, 33)]
  else if r = 8 then q.cb.toNat
  else if r = 0x10 then q.base.toNat
  else if r = 0x18 then pack [(q.halted.toNat, 63), (q.unmapped.toNat, 62), (q.warn.toNat, 61), (q.err.toNat, 56)]
  else if r = 0x20 then q.epkt.toNat
  else 0

/-- dom[d].set, dom[d].hm and dom[d].ctl; apply is W1S and reads zero, as what it starts ends in its own step (R73). -/
def Domain.readReg (D : Domain) (r : Nat) : Nat :=
  if r = 0 then D.nextSet.toNat
  else if h : r % 8 = 0 ∧ 8 ≤ r ∧ r / 8 - 1 < 6 then (D.nextHm[r / 8 - 1]'h.2.2).toNat
  else if r = 0x38 then pack [(D.refused.toNat, 4), (D.busy.toNat, 2), (D.gen.toNat, 1), (D.hold.toNat, 0)]
  else 0

/-- lk.bind (R308). -/
def Port.bindWord (p : Port) : Nat :=
  pack [(p.bound.toNat, 63), (p.side.toNat, 62), (p.trained.toNat, 61), (p.err.toNat, 60), (p.plen.toNat, 48),
    (p.owner.toNat, 40), (p.tag.toNat, 0)]

/-- fn.share and fn.wt of a function (R49). -/
def Fn.readShare (f : Fn) (r : Nat) : Nat :=
  if r = 0 then f.share.toNat
  else if 0x100 ≤ r ∧ r < 0x140 ∧ r % 8 = 0 then
    ofBytes ((f.wt.toList.drop (r - 0x100)).take 8)
  else 0

/-- dev.owncmd (R342): the operation is WO. -/
def DevRegs.ownWord (d : DevRegs) : Nat :=
  pack [(d.ownCmd.isSome.toNat, 63), (d.ownRefused.toNat, 62), (d.ownOwner.toNat, 8)]

/-- The device registers of the physical function (R35). dev.slc.mode reads the mode in force, also after a refused request
(log 91). -/
def State.readDev (s : State) (off : Nat) : Nat :=
  let d := s.dev
  if off = 0x1000 then d.clsMin.toNat
  else if off = 0x1008 then d.victim.toNat
  else if off = 0x1010 then d.ownWord
  else if off = 0x1018 then (((List.finRange 17).filter fun f => (s.fns[f]).resetting).map fun f => 2 ^ f.val).sum
  else if off = 0x1020 then d.round.toNat
  else if off = 0x1028 then pack [(d.slcRefused.toNat, 9), (d.slcDone.toNat, 8), (s.mem.mode.toNat, 0)]
  else if off = 0x1030 then d.spill.toNat
  else if off = 0x1038 then d.spillN.toNat
  else if off = 0x1040 then s.mem.fot.toNat
  else if off = 0x1048 then s.mem.rgn.toNat
  else if off = 0x1050 then d.lock.toNat
  else if off = 0x1100 then s.health
  else if 0x1200 ≤ off ∧ off < 0x1230 ∧ off % 8 = 0 then fld d.held.toNat (8 * (off - 0x1200)) 64
  else if 0x1240 ≤ off ∧ off < 0x1270 ∧ off % 8 = 0 then fld d.absent.toNat (8 * (off - 0x1240)) 64
  else if off = 0x1300 then d.pwrWord
  else if off = 0x1308 then d.thermWord
  else if off = 0x1400 then d.bootWord
  else if 0x1500 ≤ off ∧ off < 0x1700 then (s.mem.doms[Fin.ofNat 8 ((off - 0x1500) / 0x40)]).readReg ((off - 0x1500) % 0x40)
  else if off = 0x2000 ∨ off = 0x2010 then (s.port (off == 0x2010)).bindWord
  else if 0x3000 ≤ off ∧ off < 0x3000 + 0x200 * 17 then
    (s.fns[Fin.ofNat 17 ((off - 0x3000) / 0x200)]).readShare ((off - 0x3000) % 0x200)
  else if 0x20000 ≤ off ∧ off < 0x21000 ∧ off % 0x10 = 0 then
    (let x := s.mem.owners[Fin.ofNat 256 ((off - 0x20000) / 0x10)]
     pack [(x.live.toNat, 63), (x.root.toNat, 16)])
  else if 0x100000 ≤ off ∧ off < 0x104000 then
    (s.slots[Fin.ofNat 64 ((off - 0x100000) / 0x100)]).readReg ((off - 0x100000) % 0x100)
  else if 0x108000 ≤ off ∧ off < 0x118000 ∧ off % 8 = 0 then
    (s.port (decide (0x110000 ≤ off))).entry ((off - 0x108000) % 0x8000 / 8)
  else 0

/-- What a read of the word at an offset of a function's BAR 0 returns (R5, R35): zero for what is not listed, and, until
the device is ready, for everything but dev.boot (R361). -/
def State.readReg (s : State) (fn : Fin 17) (off : Nat) : Word :=
  if !s.dev.ready && !(fn = 0 && off = 0x1400) then 0
  else BitVec.ofNat 64 (
    if off < 0x1000 then (s.fns[fn]).readReg off
    else if fn = 0 then s.readDev off
    else 0)

/-- Byte k of a word. -/
def byteOf (w : Word) (k : Nat) : Byte := BitVec.ofNat 8 (fld w.toNat (8 * (k % 8)) 8)

/-- Byte k of a function's BAR 0. -/
def State.readRegByte (s : State) (fn : Fin 17) (k : Nat) : Byte := byteOf (s.readReg fn (k / 8 * 8)) k

/-! The drover's device register space (R60, R69, R190). -/

/-- rt.bnd as a word (R60). -/
def Boundary.word (b : Boundary) : Word :=
  BitVec.ofNat 64 (pack [(b.valid.toNat, 63), (b.owner.toNat, 55), (b.ocol.toNat, 50), (b.orow.toNat, 46), (b.cols.toNat, 41),
    (b.rows.toNat, 36), (b.gate.toNat, 32)])

/-- A write of rt.bnd (R60). -/
def Boundary.ofWord (w : Word) : Boundary :=
  let v := w.toNat
  { valid := bit v 63, owner := BitVec.ofNat 8 (fld v 55 8), ocol := BitVec.ofNat 5 (fld v 50 5), orow := BitVec.ofNat 4 (fld v 46 4),
    cols := BitVec.ofNat 5 (fld v 41 5), rows := BitVec.ofNat 5 (fld v 36 5), gate := BitVec.ofNat 4 (fld v 32 4) }

def MemSys.dom (m : MemSys) (d : Fin 8) : Domain := m.doms[d]
def MemSys.modDom (m : MemSys) (d : Fin 8) (f : Domain → Domain) : MemSys := { m with doms := m.doms.set d (f (m.dom d)) }

/-- dom[d].set, dom[d].hm and dom[d].ctl as the drover reads them, in force (R69). -/
def Domain.droverReg (D : Domain) (r : Nat) : Nat :=
  if r = 0 then D.set.toNat
  else if h : r % 8 = 0 ∧ 8 ≤ r ∧ r / 8 - 1 < 6 then (D.hm[r / 8 - 1]'h.2.2).toNat
  else if r = 0x38 then pack [(D.busy.toNat, 2), (D.gen.toNat, 1), (D.hold.toNat, 0)]
  else 0

/-! Parked requests (R73; log 103). -/

/-- An access is a request to the home slices of memory, not to a counter window. -/
def AccKind.toMemory : AccKind → Bool
  | .counterRead _ _ _ => false
  | .atomic _ _ _ => true | .cas _ _ _ => true | .store => true | .load _ _ => true | .loadV => true
  | .gather _ _ => true | .scales _ _ => true | .discard => true

/-- The accesses of a tile with a part of a domain still to be performed, and the questions of its contexts about a page of
it, by number. -/
def Tile.requests (T : Tile) (d : Fin 8) : List Nat :=
  ((T.accs.filter fun a => a.kind.toMemory && a.pieces.any fun p => !p.done && p.dom == d && !p.first).map (·.id)) ++
  T.ctxs.toList.filterMap fun c =>
    (c.ask.filter fun a => a.answer.isNone && (c.bank.handle a.kept.h).dom == d).map (·.id)

/-- The requests of a domain that are outstanding in the tiles. -/
def State.requests (s : State) (d : Fin 8) : List (TileId × Nat) :=
  (List.finRange 384).flatMap fun t => ((s.tile t).requests d).map fun k => (t, k)

/-- A request of a domain is parked: the domain is held, and the request was made since (R73). -/
def MemSys.parks (m : MemSys) (d : Fin 8) (t : TileId) (id : Nat) : Bool :=
  (m.dom d).hold && !(m.dom d).before.contains (t, id)

/-- A request of a domain that was made before its hold is still outstanding, or the host has still to answer one (R73). -/
def State.domainBusy (s : State) (d : Fin 8) : Bool :=
  s.mem.hreqs.any (fun q => q.dom == d) || (s.mem.dom d).before.any fun x => ((s.tile x.1).requests d).contains x.2

/-- The requests parked at the router of a tile: the lines of accesses, and questions (R73). -/
def State.parkedAt (s : State) (t : TileId) : Nat :=
  let T := s.tile t
  ((T.accs.map fun a =>
    if a.kind.toMemory then
      ((a.pieces.filter fun p => !p.done && !p.first && s.mem.parks p.dom t a.id).map fun p => p.pa / 128).eraseDups.length
    else 0).sum) +
  (T.ctxs.toList.filter fun c =>
    c.ask.any fun a => a.answer.isNone && s.mem.parks (c.bank.handle a.kept.h).dom t a.id).length

/-- hold of a domain set or cleared (R73): set, it notes what is outstanding; cleared, it frees the curtains that waited for
it, once no domain is held (R329). -/
def State.setHold (s : State) (d : Fin 8) (h : Bool) : State :=
  if (s.mem.dom d).hold = h then s
  else
    let before := if h then s.requests d else []
    let s := { s with mem := s.mem.modDom d fun D => { D with hold := h, before } }
    if h || s.mem.doms.toList.any (·.hold) then s
    else
      { s with
        agenda := ((s.pads.filter (·.due)).map fun p => .curtain p.pid) ++ s.agenda,
        pads := s.pads.map fun p => { p with due := false } }

/-- A drover's write of them: busy is read only, and hold is written apart (R69). It changes the values in force and not the
host's next ones, which the host goes on reading: R35 speaks of reads after a change of its own alone (log 117). -/
def Domain.droverSet (D : Domain) (r : Nat) (w : Word) : Domain :=
  if r = 0 then { D with set := w }
  else if h : r % 8 = 0 ∧ 8 ≤ r ∧ r / 8 - 1 < 6 then { D with hm := D.hm.set (r / 8 - 1) (w.setWidth 32) h.2.2 }
  else if r = 0x38 then { D with gen := w.getLsbD 1 }
  else D

/-- What lies at a byte of a drover thread's address map (R190): byte k of the registers of the physical function, of rt.bnd
of a tile or of the registers of a domain, or drover memory. -/
inductive DroverPlace where
  | host (k : Nat)
  | boundary (t : TileId) (k : Nat)
  | domain (d : Fin 8) (k : Nat)
  | memory
deriving DecidableEq, Repr

/-- The offset of an address in a window of n bytes. -/
def inWindow (base : BitVec 64) (n addr : Nat) : Option Nat :=
  let b := base.toNat / 8 * 8
  if b ≤ addr ∧ addr < b + n then some (addr - b) else none

/-- The layout of the map is open (log 94). -/
def droverPlace (addr : Nat) : DroverPlace :=
  match inWindow Config.droverRegs (2 ^ 26) addr, inWindow Config.droverBnds (8 * 384) addr, inWindow Config.droverDoms 0x200 addr with
  | some k, _, _ => .host k
  | none, some k, _ => .boundary (tileOf (k / 8)) (k % 8)
  | none, none, some k => .domain (Fin.ofNat 8 (k / 0x40)) (k % 0x40)
  | none, none, none => .memory

end Sys2Proof.Machine
end

