-- ==== Sys2Proof/Machine/Checks.lean ====
section
/-!
DEFINITION. What holds a bundle before it issues (R117, R321) and the issue checks of each syllable (R320, R321),
all made on the state before the bundle.
-/
namespace Sys2Proof.Machine

/-- What a failed issue check raises: a precise trap with its info words (none where no rule gives a value), or a
system fault (R320, R325). -/
inductive Verdict where
  | trap (code : Nat) (info0 : Option Nat) (info1 : Nat)
  | fault (code : Nat)
deriving DecidableEq, Repr

/-- The illegal-operand trap with the value of the offending operand (R320). Where a check finds fault with what an
operand field names and not with a value (a ring of size 0, a closed stream, an empty sequencer), the value is the
field's number (log 74). -/
def illegalOperand (v : Nat) : Option Verdict := some (.trap 0x03 (some v) 0)
/-- The illegal-operand trap where no operand is at fault: info0 is a free value (log 5). -/
def illegalUse : Option Verdict := some (.trap 0x03 none 0)

/-- The first failed check (R321). -/
def firstOf : List (Option Verdict) → Option Verdict
  | [] => none
  | some v :: _ => some v
  | none :: r => firstOf r

def checkWhen (c : Bool) (v : Option Verdict) : Option Verdict := if c then v else none

/-! Memory access through handles (R166, R186). -/

/-- The page size of a handle (R166). -/
def Handle.pageSize (h : Handle) : Nat := if h.large then 2 ^ 29 else 2 ^ 16
/-- The frame lies on the peer box (R62). -/
def Handle.peer (h : Handle) : Bool := h.frame.toNat / 2 ^ 30 == 1

/-- Checks 3 to 5 of R186: peer box, rights, alignment and range. -/
def handleFails (h : Handle) (rd wr : Bool) (off : Int) (n align : Nat) : Bool :=
  h.peer || (rd && !h.read) || (wr && !h.write) ||
  off % (align : Int) != 0 || off < 0 || (h.pageSize : Int) < off + (n : Int)

/-- Checks 2 to 5 of R186 for an access that traps through a cleared handle (`strict`) or, for loads, does not. -/
def handleCheck (b : Bank) (k : Fin 16) (strict rd wr : Bool) (off : Int) (n align : Nat) : Option Verdict :=
  let h := b.handle k
  let info1 := wrap 64 off
  if !h.valid then (if strict then some (.trap 0x05 (some k.val) info1) else none)
  else checkWhen (handleFails h rd wr off n align) (some (.trap 0x06 (some k.val) info1))

/-- A ring named with lsize 0 (R163, R187). -/
def ringCheck (b : Bank) (q : Fin 16) : Option Verdict := checkWhen ((b.ring q).lsize == 0) (illegalOperand q.val)

/-- The offset of the J forms (R186). -/
def State.memOff (s : State) (a : Src) (disp : BitVec 31) : Int := (s.X 1 a).toNat + disp.toInt

/-- A lane of MGATH: inactive, or its handle and offset (R188). -/
def State.gatherLane (s : State) (a b : Src) (j : Nat) : Option (Fin 16 × Nat) :=
  let o := elem 32 (s.V 1 a).toNat j
  if bit o 31 then none else some (Fin.ofNat 16 (fld o 27 4), fld o 0 27 + (s.X 2 b).toNat)

/-- The lowest failing lane of MGATH (R188). -/
def State.gatherCheck (s : State) (a b : Src) (e : Nat) : Option Verdict :=
  firstOf ((List.range 64).map fun j =>
    match s.gatherLane a b j with
    | none => none
    | some (k, off) =>
      let h := s.bank.handle k
      checkWhen (h.valid && handleFails h true false off e e) (some (.trap 0x06 (some (j * 256 + k.val)) off)))

/-! Waits (R117, R321). -/

/-- A wait that holds a bundle: an engine wait, or another stall. -/
inductive Wait where
  | engine
  | stall
  | panel
deriving DecidableEq, Repr

def waitWhen (c : Bool) (w : Wait) : List Wait := if c then [w] else []

/-- Copies in the tile's queues (R169): CNTADD entries do not count. -/
def Tile.copies (T : Tile) : Nat :=
  (T.queues.toList.map fun q => (q.filter fun e => match e.work with | .add _ _ => false | _ => true).length).sum

/-- Load-address queue entries in use (R165). -/
def Tile.loads (T : Tile) : Nat :=
  (T.accs.filter fun a => match a.dest with | .ring _ _ _ => !a.landed | _ => false).length

/-- Scale entries that incomplete matrix entries of a context have reserved (R256). -/
def Tile.reserved (T : Tile) (c : Fin 4) : Nat :=
  ((T.mq.filter fun e => e.ctx = c).map fun e =>
    match e.work with
    | .mma _ _ _ _ _ _ _ _ _ _ _ sa _ => sa.length
    | _ => 0).sum

def ScaleEntry.isLanded : ScaleEntry → Bool
  | .landed _ => true
  | .claimed _ _ => false

/-- Scale entries that an operation needs: one per block of 32 positions, when scaled (R256). -/
def scalesNeeded (fa : MFmt) (kb : BitVec 3) : Nat := if fa.scaled then kb.toNat + 1 else 0

/-- Entries of a scale queue that no earlier operation has reserved (R256). -/
def State.scaleAvail (s : State) (k : Bool) : List ScaleEntry :=
  match s.issue.agent with
  | .ctx t c => (s.bank.scale k).drop ((s.tile t).reserved c)
  | .drover _ => []

/-- The scale-queue wait of R256. -/
def State.scaleWait (s : State) (n : Nat) : List Wait :=
  let wait (k : Bool) : Bool := !((s.scaleAvail k).take n).all ScaleEntry.isLanded
  waitWhen (n ≤ (s.scaleAvail false).length && n ≤ (s.scaleAvail true).length && (wait false || wait true)) .engine

/-- The queue-imbalance check of R256. -/
def State.scaleCheck (s : State) (n : Nat) : Option Verdict :=
  if (s.scaleAvail false).length < n then some (.trap 0x07 (some 0) n)
  else if (s.scaleAvail true).length < n then some (.trap 0x07 (some 1) n)
  else none

/-- Panels that a matrix entry names (R252), the index panel of R263 included. -/
def MWork.panels : MWork → List (Fin 4)
  | .mma d a b md _ _ _ _ _ ops _ _ _ =>
    let op : MOperand → List (Fin 4) := fun m => match m with | .panel n => [n] | .ring _ _ _ => []
    d :: op a ++ op b ++ (match md with | some (m, _) => op m | none => []) ++
      (if ops.contains .csel then [d ^^^ 1] else [])
  | .zero d => [d]
  | .load d _ _ _ _ _ => [d]
  | .store a _ _ _ _ _ _ _ => [a]
  | .rput d _ _ => [d]
  | .trn d a => [d, a]
  | .scl d a _ _ => [d, a]
  | .exp d a _ _ => [d, a]
  | .add _ _ => []

/-- The busy bit of a panel (R252). -/
def Tile.busy (T : Tile) (c : Fin 4) (p : Fin 4) : Bool :=
  T.mq.any fun e => e.ctx = c && e.work.panels.contains p

/-- Entries of ring q that uncompleted queued M instructions of a context have popped (R255). -/
def Tile.heldPops (T : Tile) (c : Fin 4) (q : Fin 16) : List (BitVec 32 × Nat) :=
  ((T.mq.filter fun e => e.ctx = c).map fun e => (e.pops.filter fun p => p.1 = q).map (·.2)).flatten

/-- RREL would raise rel over an entry the engine has still to read (R255). -/
def Tile.relHeld (T : Tile) (c : Fin 4) (q : Fin 16) (rel : BitVec 32) (k : Nat) : Bool :=
  (T.heldPops c q).any fun p => (List.range p.2).any fun j => (p.1 + BitVec.ofNat 32 j - rel).toNat < k

def State.issuer (s : State) : Fin 4 :=
  match s.issue.agent with
  | .ctx _ c => c
  | .drover _ => 0

/-- The ring-room stall of R165 and the full load-address queue. -/
def State.loadWait (s : State) (q : Fin 16) (n : Nat) : List Wait :=
  let r := s.bank.ring q
  waitWhen (r.lsize != 0 && r.room < r.need n) .stall ++ waitWhen (64 ≤ s.here.loads) .stall

/-- The mark a waiting CPYWAIT holds (R206). -/
def Ctx.mark (c : Ctx) (hdr : Nat) : Option Nat :=
  match c.marks with
  | some (h, _, m) => if h = hdr then some m else none
  | none => none

/-- Entries that a CPYWAIT still waits for (R206). -/
def Tile.copiesBefore (T : Tile) (mask serial : Nat) : Bool :=
  (List.range 4).any fun k => bit mask k && (T.queues.toList.getD k []).any fun e => e.serial < serial

/-- Entries of a merge stream below a limit (R280). -/
def Tile.mergesBelow (T : Tile) (st : Fin 4) (limit : Nat) : List MergeEntry :=
  T.merges.filter fun e => e.stream = st && e.seq < limit

/-- Some token queue of the paddock is full, the tokens on their way counted (R122). -/
def State.tokensFull (s : State) (t : TileId) : Bool :=
  match (s.tile t).pad with
  | none => false
  | some p =>
    let coming := match s.pad? p with | some k => k.net.tokens.length | none => 0
    s.tiles.toList.any fun T => T.pad == some p && 16 ≤ T.pr.tokens.length + coming

def State.handleWait (s : State) (k : Fin 16) : List Wait := waitWhen (s.bank.handle k).pending .engine

/-- An access whose request the router would park finds its replay queue of 16 entries full (R73, R117). -/
def State.parkWait (s : State) (k : Fin 16) : List Wait :=
  let h := s.bank.handle k
  match s.issue.agent with
  | .ctx t _ => waitWhen (h.valid && !h.first && (s.mem.dom h.dom).hold && 16 ≤ s.parkedAt t) .stall
  | .drover _ => []

/-- The waits of an access through a handle. -/
def State.accessWait (s : State) (k : Fin 16) : List Wait := s.handleWait k ++ s.parkWait k

def stream4 (st : BitVec 2) : Fin 4 := ⟨st.toNat, st.isLt⟩

/-- A syllable that enters the matrix queue (R251). -/
def entersMq : Instr → Bool
  | .mma _ _ _ _ _ _ _ _ _ => true
  | .mmas _ _ _ _ _ _ _ _ _ _ => true
  | .mzero _ _ => true
  | .mldp _ _ _ _ _ _ _ => true
  | .mstp _ _ _ _ _ _ _ _ _ => true
  | .mrput _ _ _ _ => true
  | .mtrn _ _ _ => true
  | .mscl _ _ _ _ _ => true
  | .mexp _ _ _ _ _ => true
  | .cntadd _ _ q _ => q.toNat == 4
  | _ => false

/-- The matrix queue has no room for the entries of the bundle: its M syllable or e4 CNTADD would find it full (R251). -/
def e4Full (s : State) : List Wait :=
  waitWhen (8 < s.here.mq.length + (s.issue.todo.filter fun p => s.guardTrue p.2 && entersMq p.2).length) .stall
def e5Full (s : State) : List Wait := waitWhen (16 ≤ s.here.e5.length) .stall
def copyFull (s : State) : List Wait := waitWhen (128 ≤ s.here.copies) .stall
def panelWait (s : State) (p : Fin 4) : List Wait := waitWhen (s.here.busy s.issuer p) .panel

def MemOrd.acquires : MemOrd → Bool
  | .acq => true | .acqrel => true | .rlx => false | .rel => false
def MemOrd.releases : MemOrd → Bool
  | .rel => true | .acqrel => true | .rlx => false | .acq => false

def AccKind.isAtomic : AccKind → Bool
  | .atomic _ _ _ => true | .cas _ _ _ => true
  | .load _ _ => false | .loadV => false | .gather _ _ => false | .store => false | .scales _ _ => false
  | .discard => false | .counterRead _ _ _ => false

/-- A syllable that reads or writes memory or scratchpad, or counters, at its issue or later (R284): a CNTADD of code 7 adds at
issue (R203), and a copy instruction reads its record there (R194). -/
def makesAccess : Instr → Bool
  | .lds _ _ _ _ _ _ _ => true
  | .sts _ _ _ _ _ _ => true
  | .ldv _ _ _ _ _ => true
  | .stv _ _ _ _ _ => true
  | .ldvs _ _ _ _ _ _ => true
  | .gath _ _ _ _ _ => true
  | .scat _ _ _ _ _ => true
  | .mld _ _ _ _ _ _ _ => true
  | .mldv _ _ _ _ _ => true
  | .mgath _ _ _ _ _ _ => true
  | .mst _ _ _ _ _ _ => true
  | .mstv _ _ _ _ _ => true
  | .amo _ _ _ _ _ _ _ _ _ => true
  | .amocas _ _ _ _ _ _ _ _ _ => true
  | .sqld _ _ _ _ _ => true
  | .disc _ _ _ _ => true
  | .cntrd _ _ _ _ _ => true
  | .cntwait _ _ _ => true
  | .cntadd _ _ q _ => q.toNat == 7
  | .cpy _ _ _ _ => true
  | .cpyr _ _ _ _ => true
  | .mcast _ _ _ _ => true
  | .seq _ _ _ _ => true
  | .pgcast _ _ _ _ => true
  | _ => false

/-- An acquire atomic of the context that has not been performed: no later access issues (R288). The wait is none of
R117's. -/
def State.acquireWait (s : State) (i : Instr) : List Wait :=
  match s.issue.agent with
  | .drover _ => []
  | .ctx t c =>
    waitWhen (makesAccess i && (s.tile t).accs.any fun a =>
      a.ctx = c && a.kind.isAtomic && MemOrd.acquires a.ord && a.pieces.any fun p => !p.done) .stall

/-- The waits of one syllable whose guard is true, its ring pops and register interlocks apart. -/
def waitsOf (s : State) : Instr → List Wait
  | .token _ _ _ => waitWhen (s.tokensFull s.homeTile) .stall
  | .ringset _ d _ _ _ => let r := s.bank.ring d; waitWhen (r.res != r.prod) .stall
  | .rrel _ d a n =>
    waitWhen (s.here.relHeld s.issuer d (s.bank.ring d).rel ((s.X 1 a).toNat + n.toNat)) .stall
  | .xlt _ d _ => s.handleWait d ++ waitWhen (16 ≤ s.here.walks.length) .stall
  | .hrel _ d => s.handleWait d
  | .hinfo _ _ a _ => s.handleWait a
  | .mld _ _ (.ring q) _ h _ _ => s.accessWait h ++ s.loadWait q 8
  | .mldv _ d _ h _ => s.accessWait h ++ s.loadWait d 256
  | .mgath _ _ d a b _ =>
    (((List.range 64).map fun j =>
      match s.gatherLane a b j with | some (k, _) => s.accessWait k | none => []).flatten) ++ s.loadWait d 256
  | .mst _ _ _ _ h _ => s.accessWait h
  | .mstv _ _ _ h _ => s.accessWait h
  | .amo _ _ d _ _ _ _ _ h => s.accessWait h ++ s.loadWait d 8
  | .amocas _ _ d _ _ _ _ _ h => s.accessWait h ++ s.loadWait d 8
  | .sqld _ d _ n1 h => s.accessWait h ++ waitWhen (16 < (s.bank.scale (d == 1)).length + n1.toNat + 1) .stall
  | .sqpush _ d _ n1 => waitWhen (16 < (s.bank.scale (d == 1)).length + n1.toNat + 1) .stall
  | .disc _ _ _ h => s.accessWait h
  | .mma _ _ _ _ _ fa _ kb _ => e4Full s ++ s.scaleWait (scalesNeeded fa kb)
  | .mmas _ _ _ _ _ fa _ kb _ _ => e4Full s ++ s.scaleWait (scalesNeeded fa kb)
  | .mzero _ _ => e4Full s
  | .mldp _ _ _ _ _ _ _ => e4Full s
  | .mstp _ _ _ _ _ _ _ _ _ => e4Full s
  | .mrput _ _ _ _ => e4Full s
  | .mtrn _ _ _ => e4Full s
  | .mscl _ _ _ _ _ => e4Full s
  | .mexp _ _ _ _ _ => e4Full s
  | .mrow _ _ a _ => panelWait s a
  | .mflg _ (.row _ a _) => panelWait s a
  | .mflg _ (.any _ a) => panelWait s a
  | .mfclr _ d => panelWait s d
  | .mmax _ _ a _ => panelWait s a
  | .seq _ _ _ q => waitWhen (s.here.seqs[q]).run.isSome .stall
  | .seqgo _ _ q => waitWhen (s.here.seqs[q]).run.isSome .stall
  | .cpy _ _ _ _ => copyFull s
  | .cpyr _ _ _ _ => copyFull s
  | .mcast _ _ _ _ => copyFull s
  | .pgcast _ _ _ _ => copyFull s
  | .lksendData _ _ _ _ _ _ _ _ _ => copyFull s
  | .lkrecvPost _ _ _ _ _ _ _ _ _ => copyFull s
  | .cntadd _ _ q _ => if q.toNat = 4 then e4Full s else if q.toNat = 5 then e5Full s else []
  | .cntwait _ a k =>
    waitWhen (!(counterAddrs k.toNat).any (fun x => s.here.mem.poison.contains (x / 8)) &&
      (s.here.mem.counter k.toNat).toNat < (s.X 1 a).toNat) .engine
  | .cpywait _ m =>
    waitWhen (s.here.copiesBefore m.toNat (((s.ctx s.issue.agent).mark s.issue.hdr).getD s.here.serial)) .engine
  | .condv _ _ n => waitWhen (64 ≤ (s.here.seqs[stream4 n]).bits.length) .stall
  | .bar _ _ _ _ => e5Full s
  | .scene _ => e5Full s
  | .netred _ _ _ _ _ _ _ _ _ => e5Full s
  | .netbc _ _ _ _ _ _ _ => e5Full s
  | .redopen _ _ _ _ _ _ => e5Full s
  | .redclose _ _ _ => e5Full s
  | .mrgdrnDrain _ a st =>
    waitWhen ((s.here.streams[stream4 st]).opened && (s.X 1 a).toNat ≤ 65536 &&
      (s.here.mergesBelow (stream4 st) (s.X 1 a).toNat).any fun e => e.part.isNone) .engine
  | .mrgdrnFin _ _ st =>
    waitWhen ((s.here.streams[stream4 st]).opened &&
      (s.here.mergesBelow (stream4 st) 65536).any fun e => e.part.isNone) .engine
  | _ => []

/-! Issue checks. -/

/-- Where a pop of the syllable fails: no ring, more entries than the ring holds for a matrix operand (R163, R254). -/
def popCheckOf (b : Bank) : Opnd → Option Verdict
  | .xs _ (.pop q) => ringCheck b q
  | .vs _ (.pop q) => ringCheck b q
  | .ms _ (.pop q) n =>
    firstOf [ringCheck b q, checkWhen ((b.ring q).entries < (b.ring q).need n) (illegalOperand ((b.ring q).need n))]
  | _ => none

/-- A pop that meets an uncorrectable error in the operand bytes that it reads (R163, R326). -/
def State.popError (s : State) (slot : Nat) : Option Verdict :=
  firstOf ((s.issue.pops.filter fun p => p.slot = slot).map fun p =>
    match (List.range p.k).find? fun j => p.ring.poison.contains (p.ring.rd + BitVec.ofNat 32 j) with
    | some j => some (.trap 0x09 (some 1) (p.ring.entryAt ((p.ring.rd.toNat + j) % 2 ^ 32)))
    | none =>
      if s.issue.mem.poison.isEmpty then none
      else ((p.ring.addrs p.ring.rd.toNat p.bytes).find? fun a => s.issue.mem.poison.contains (a / 8)).map fun a =>
        .trap 0x09 (some 1) (a / 8 * 8))

/-- The scratchpad offsets that a syllable reads through a window, and the local counter that CNTRD and CNTWAIT read
(R204, R205). The offsets of MLDP are those its entry will read (R266). -/
def readsOf (s : State) : Instr → List Nat
  | .lds _ t _ a w _ disp => (s.bank.window w).addrs ((s.X 1 a).toNat + disp.toInt) t.width
  | .ldv _ _ a w disp => (s.bank.window w).addrs ((s.X 1 a).toNat + disp.toInt) 256
  | .ldvs _ t _ a b w =>
    (tab (256 / t.width) fun j =>
      (s.bank.window w).addrs ((s.X 1 a).toNat + (j : Int) * (s.X 2 b).toInt) t.width).flatten
  | .gath _ _ a b w =>
    (tab 64 fun j =>
      let o := elem 32 (s.V 1 a).toNat j
      if bit o 31 then [] else (s.bank.window w).addrs ((s.X 2 b).toNat + fld o 0 31 : Nat) 4).flatten
  | .seq _ d a _ => (s.bank.window d).addrs (s.X 1 a).toNat 128
  | .cpy _ d a _ => (s.bank.window d).addrs (s.X 1 a).toNat 64
  | .cpyr _ d a _ => (s.bank.window d).addrs (s.X 1 a).toNat 64
  | .mcast _ d a _ => (s.bank.window d).addrs (s.X 1 a).toNat 64
  | .pgcast _ d a _ => (s.bank.window d).addrs (s.X 1 a).toNat 64
  | .mldp _ t _ a b c _ =>
    (tab 32 fun r =>
      (s.bank.window b).addrs ((s.X 1 a).toNat + (r : Int) * (s.X 3 c).toInt) (32 * t.width)).flatten
  | .cntrd _ _ _ false k => counterAddrs k.toNat
  | .cntwait _ _ k => counterAddrs k.toNat
  | _ => []

/-- A context read that meets an error (R326). -/
def State.readError (s : State) (i : Instr) : Option Verdict :=
  if s.issue.mem.poison.isEmpty then none
  else
    match (readsOf s i).find? fun a => s.issue.mem.poison.contains (a / 8) with
    | some a => some (.trap 0x09 (some 0) (a / 8 * 8))
    | none => none

def parsedCheck {α : Type} (off : Nat) : Parsed α → Option Verdict
  | .illegal => illegalOperand off
  | .route => some (.fault 0x22)
  | .ok _ => none

def State.winOf (s : State) (k : Nat) : Window := s.bank.window (Fin.ofNat 8 k)

/-- The copy record a copy instruction names (R194). -/
def State.copyRec (s : State) (d : Fin 8) (a : Src) (dirs : Nat → Bool) : Parsed CopyRec :=
  parseCopy s.issue.mem.spad (s.bank.window d) s.winOf s.issue.mem.bnd dirs (s.X 1 a).toNat

def State.seqRec (s : State) (d : Fin 8) (a : Src) : Parsed SeqRec :=
  parseSeq s.issue.mem.spad (s.bank.window d) s.winOf s.issue.mem.bnd (s.X 1 a).toNat

def State.pageRec (s : State) (d : Fin 8) (a : Src) : Parsed CopyWork :=
  parsePage s.issue.mem.spad (s.bank.window d) (s.X 1 a).toNat

/-- Directions that CPY, CPYR and MCAST accept (R197). -/
def cpyDir (d : Nat) : Bool := d ≤ 3
def cpyrDir (d : Nat) : Bool := d == 5
def mcastDir (d : Nat) : Bool := d == 4

/-- The checks of LOOP and LOOPX (R123, R148). The value of a bad end is the end index that the bundle computes: no rule
says whether it, or the field it is computed from, is the offending operand of R320 (log 102). -/
def State.loopCheck (s : State) (stop : Int) (n stages : Nat) : Option Verdict :=
  let l := s.bank.loops
  firstOf [
    checkWhen (s.issue.agent.isDrover && stages != 0) (illegalOperand stages),
    checkWhen (stop ≤ s.issue.hdr) (illegalOperand (wrap 64 stop)),
    checkWhen (n != 0 && 2 ≤ l.length) illegalUse,
    checkWhen (n != 0 && l.any fun e => (e.stop : Int) ≤ stop) (illegalOperand (wrap 64 stop)),
    checkWhen (n != 0 && stages != 0 && l.any fun e => e.stages != 0) (illegalOperand stages)]

/-- The link form of a register branch: a code entry of the linkage table (R14, R146). -/
def linkCheck (link : Bool) (v : Word) : Option Verdict :=
  checkWhen (link && !(fld v.toNat 62 2 == 2 && fld v.toNat 14 48 == 0)) (illegalOperand v.toNat)

/-- The stream of a link instruction on its port (R311): bound to this paddock, with a valid entry, whose side,
rank and context are those of the issuer (`send`: sending side). -/
def State.linkCheck (s : State) (port : Bool) (stream : Nat) (send : Bool) : Option Verdict :=
  let p := s.port port
  let rank := s.issue.mem.bnd.rank s.homeTile
  if !(p.bound && p.pad == s.here.pad && p.pad.isSome) then illegalOperand port.toNat
  else
    match p.streamEntry stream with
    | none => illegalOperand stream
    | some e =>
      let mine := if send then ttSide e == p.side && ttSrank e == rank && ttSctx e == s.issuer.val
        else ttSide e != p.side && ttDrank e == rank && ttDctx e == s.issuer.val
      checkWhen (!mine) (illegalOperand stream)

/-- A participant count of R300: 1 to cols × rows. -/
def State.countCheck (s : State) (n : Nat) : Option Verdict :=
  checkWhen (n == 0 || s.issue.mem.bnd.size < n) (illegalOperand n)

/-- The panels that an m source names. -/
def srcNames (m : MSrc) (p : Fin 4) : Bool :=
  match m with
  | .panel n => n == p
  | .pop _ => false

/-- CSEL with its index panel among the sources (R260): the offending operand is the panel d XOR 1. -/
def State.cselCheck (s : State) (d : Fin 4) (l : List MSrc) : Option Verdict :=
  checkWhen (s.issue.ctx.ops.contains .csel && l.any fun m => srcNames m (d ^^^ 1)) (illegalOperand (d ^^^ 1 : Fin 4).val)

/-- Whether the tile's stage is in a stage mask (R295). -/
def Tile.inStages (T : Tile) (smask : Nat) : Bool := bit smask T.stage.toNat

/-- X(a) of MRGDRN.open (R280). -/
def mergeOpenOk (v : Nat) : Bool :=
  fld v 20 4 == 0 && fld v 27 5 == 0 && fld v 41 23 == 0 && fld v 24 3 != 7 &&
  fld v 0 20 % 2 ^ (fld v 24 3 + 12) == 0 && fld v 0 20 + 4 * 2 ^ (fld v 24 3 + 10) ≤ 0xE0000

/-- The checks of one syllable, in the order its description gives. -/
def ownCheckOf (s : State) : Instr → Option Verdict
  | .brx _ a link => Machine.linkCheck link (s.X 1 a)
  | .callx _ _ a link => Machine.linkCheck link (s.X 1 a)
  | .loop _ off stages n => s.loopCheck (s.issue.hdr + off.toInt) n.toNat stages.toNat
  | .loopx _ a dist stages =>
    firstOf [checkWhen (2 ^ 32 ≤ (s.X 1 a).toNat) (illegalOperand (s.X 1 a).toNat),
      s.loopCheck (s.issue.hdr + dist.toNat) (s.X 1 a).toNat stages.toNat]
  | .close _ => checkWhen s.bank.loops.isEmpty illegalUse
  | .endt _ => checkWhen s.issue.ctx.trap.handling illegalUse
  | .token _ a b =>
    firstOf [checkWhen (256 ≤ (s.X 1 a).toNat) (illegalOperand (s.X 1 a).toNat),
      checkWhen (256 ≤ (s.X 2 b).toNat) (illegalOperand (s.X 2 b).toNat),
      checkWhen (s.here.lead != some s.issuer) illegalUse]
  | .eret _ => checkWhen (!s.issue.ctx.trap.handling) illegalUse
  | .winset _ _ a b =>
    firstOf [checkWhen (0x100000 ≤ (s.X 1 a).toNat) (illegalOperand (s.X 1 a).toNat),
      checkWhen ((s.X 2 b).toNat == 0 || 0x100000 < (s.X 2 b).toNat) (illegalOperand (s.X 2 b).toNat)]
  | .ringset _ _ a lsize esz =>
    let v := (s.X 1 a).toNat
    checkWhen ((lsize != 0 && 0x100000 ≤ v) || v % 2 ^ (esz.toNat + lsize.toNat) != 0) (illegalOperand v)
  | .radv _ d a n =>
    let r := s.bank.ring d
    let k := (s.X 1 a).toNat + n.toNat
    firstOf [ringCheck s.bank d, checkWhen (r.res != r.prod) (illegalOperand d.val),
      checkWhen (k != 0 && r.entries < (r.prod - r.rel).toNat + k) (illegalOperand k)]
  | .rrel _ d a n =>
    let r := s.bank.ring d
    let k := (s.X 1 a).toNat + n.toNat
    firstOf [ringCheck s.bank d, checkWhen (k != 0 && (r.rd - r.rel).toNat < k) (illegalOperand k)]
  | .xlt _ _ a => checkWhen (!isVA (s.X 1 a).toNat) (illegalOperand (s.X 1 a).toNat)
  | .mld _ t (.ring q) a h _ disp =>
    firstOf [ringCheck s.bank q, handleCheck s.bank h false true false (s.memOff a disp) t.width t.width]
  | .mldv _ d a h disp =>
    firstOf [ringCheck s.bank d, handleCheck s.bank h false true false (s.memOff a disp) 256 4]
  | .mgath _ t d a b _ => firstOf [ringCheck s.bank d, s.gatherCheck a b t.width]
  | .mst _ t _ a h disp =>
    checkWhen (!s.issue.agent.isDrover) (handleCheck s.bank h true false true (s.memOff a disp) t.width t.width)
  | .mstv _ _ a h disp => handleCheck s.bank h true false true (s.memOff a disp) 256 4
  | .amo _ t d a _ _ _ _ h =>
    firstOf [ringCheck s.bank d, handleCheck s.bank h true true true (s.X 1 a).toNat t.width t.width]
  | .amocas _ t d a _ _ _ _ h =>
    firstOf [ringCheck s.bank d, handleCheck s.bank h true true true (s.X 1 a).toNat t.width t.width]
  | .sqld _ _ a n1 h => handleCheck s.bank h false true false (s.X 1 a).toNat (32 * (n1.toNat + 1)) 32
  | .disc _ a b h =>
    let hd := s.bank.handle h
    let off := (s.X 1 a).toNat
    let len := (s.X 2 b).toNat
    let bad := some (Verdict.trap 0x06 (some h.val) off)
    firstOf [checkWhen (!hd.valid) (some (.trap 0x05 (some h.val) off)),
      checkWhen (hd.peer || !hd.write) bad, checkWhen (!hd.unb) bad,
      checkWhen (len != 0 && (off % 128 != 0 || len % 128 != 0 || hd.pageSize < off + len)) bad]
  | .mma _ d a b _ fa _ kb _ => firstOf [s.cselCheck d [a, b], s.scaleCheck (scalesNeeded fa kb)]
  | .mmas _ d a b c fa _ kb _ _ => firstOf [s.cselCheck d [a, b, c], s.scaleCheck (scalesNeeded fa kb)]
  | .cpy _ d a _ => parsedCheck (s.X 1 a).toNat (s.copyRec d a cpyDir)
  | .cpyr _ d a _ => parsedCheck (s.X 1 a).toNat (s.copyRec d a cpyrDir)
  | .mcast _ d a _ => parsedCheck (s.X 1 a).toNat (s.copyRec d a mcastDir)
  | .seq _ d a _ => parsedCheck (s.X 1 a).toNat (s.seqRec d a)
  | .seqgo _ _ q => checkWhen (s.here.seqs[q]).record.isNone (illegalOperand q.val)
  | .pgcast _ d a _ => parsedCheck (s.X 1 a).toNat (s.pageRec d a)
  | .cntrd _ _ a remote _ =>
    checkWhen (remote && s.issue.mem.bnd.size ≤ (s.X 1 a).toNat) (some (.fault 0x22))
  | .bar _ _ _ smask => checkWhen (!s.here.inStages smask.toNat) (illegalOperand smask.toNat)
  | .netred _ _ _ _ b _ _ _ _ => s.countCheck (s.X 2 b).toNat
  | .netbc _ _ _ _ b c _ =>
    firstOf [s.countCheck (s.X 3 c).toNat,
      checkWhen (s.issue.mem.bnd.size ≤ (s.X 2 b).toNat) (some (.fault 0x22))]
  | .redopen _ _ a _ _ _ =>
    checkWhen ((s.X 1 a).toNat % 128 != 0 || !isVA (s.X 1 a).toNat) (illegalOperand (s.X 1 a).toNat)
  | .flkadd _ a flk _ =>
    checkWhen (255 < (s.X 1 a).toNat + flk.toNat) (illegalOperand ((s.X 1 a).toNat + flk.toNat))
  | .flkdel _ a flk =>
    checkWhen (255 < (s.X 1 a).toNat + flk.toNat) (illegalOperand ((s.X 1 a).toNat + flk.toNat))
  | .merge _ _ b _ st =>
    let v := (s.X 2 b).toNat
    checkWhen (65536 ≤ v || !(s.here.merges.any fun e => e.stream = stream4 st && e.seq == v && e.part.isNone))
      (illegalOperand v)
  | .mrgdrnOpen _ a st =>
    checkWhen (!mergeOpenOk (s.X 1 a).toNat || s.here.merges.any fun e => e.stream = stream4 st)
      (illegalOperand (s.X 1 a).toNat)
  | .mrgdrnDrain _ a st =>
    firstOf [checkWhen (65536 < (s.X 1 a).toNat) (illegalOperand (s.X 1 a).toNat),
      checkWhen (!(s.here.streams[stream4 st]).opened) (illegalOperand st.toNat)]
  | .mrgdrnFin _ _ st => checkWhen (!(s.here.streams[stream4 st]).opened) (illegalOperand st.toNat)
  | .rsv _ _ a _ =>
    checkWhen ((s.X 1 a).toNat == 0 || 1024 < (s.X 1 a).toNat) (illegalOperand (s.X 1 a).toNat)
  | .unrsv _ _ a _ =>
    checkWhen ((s.X 1 a).toNat == 0 || 1024 < (s.X 1 a).toNat) (illegalOperand (s.X 1 a).toNat)
  | .lksendData _ _ a _ port stream _ _ _ =>
    firstOf [s.linkCheck port stream.toNat true,
      checkWhen ((s.X 1 a).toNat % 128 != 0) (illegalOperand (s.X 1 a).toNat)]
  | .lkrecvPost _ _ a _ port stream _ _ _ =>
    firstOf [s.linkCheck port stream.toNat false,
      checkWhen ((s.X 1 a).toNat % 128 != 0) (illegalOperand (s.X 1 a).toNat)]
  | .lksendRst _ _ port stream => s.linkCheck port stream.toNat true
  | .lkrecvRst _ _ port stream => s.linkCheck port stream.toNat false
  | .lkrecvFrame _ _ port =>
    checkWhen (!((s.port port).bound && (s.port port).pad == s.here.pad && s.here.pad.isSome)) (illegalOperand port.toNat)
  | _ => none

/-- All issue checks of a syllable: its pops, its own, and errors in what it reads (R321, R326). -/
def checkOf (s : State) (slot : Nat) (i : Instr) : Option Verdict :=
  firstOf [firstOf (i.operands.map (popCheckOf s.bank)), s.popError slot, ownCheckOf s i, s.readError i]

end Sys2Proof.Machine
end

