-- ==== Sys2Proof/Machine/Halves.lean ====
section
/-!
DEFINITION. The halves of host lines that the system-level cache holds, and what leaves it (R72, R287, R345).
-/
namespace Sys2Proof.Machine

/-- The half held at an address. -/
def MemSys.half (m : MemSys) (pa : Nat) : Option HostHalf := m.halves.find? fun h => h.half = pa / 64

/-- A half leaves the cache (R345): its request to the host, and memory after a dirty eviction. -/
def MemSys.evictHalf (m : MemSys) (h : HostHalf) : MemSys × List OutMsg :=
  let m' := { m with halves := m.halves.filter fun x => x.half != h.half }
  match h.st with
  | .modified =>
    ({ m' with bytes := Sparse.puts 0 m.bytes ((tab 64 fun j => h.half * 64 + j).zip h.data) },
      [.cxl .dirtyEvict h.half h.data])
  | .exclusive => (m', [.cxl .cleanEvict h.half []])
  | .shared => (m', [.cxl .cleanEvictNoData h.half []])

/-- Halves leaving in turn. -/
def MemSys.evictAll (m : MemSys) (l : List HostHalf) : MemSys × List OutMsg :=
  l.foldl (fun acc h => let r := acc.1.evictHalf h; (r.1, acc.2 ++ r.2)) (m, [])

/-- A line of another owner at the address leaves before an access, which hits only its own owner's line (R72). -/
def MemSys.evictOthers (m : MemSys) (pa : Nat) (o : OwnerTag) : MemSys × List OutMsg :=
  m.evictAll (m.halves.filter fun h => h.half / 2 = pa / 128 && h.owner != o)

/-- The halves that an owner's stores to nalloc pages have made dirty (R287). -/
def MemSys.owed (m : MemSys) (o : OwnerTag) : List HostHalf := m.halves.filter fun h => h.wb && h.owner == o

/-- The memory system and messages after an operation on it. -/
def State.withMem (s : State) (r : MemSys × List OutMsg) : State := { s with mem := r.1, out := s.out ++ r.2 }

/-- The write-back of every half that stores to nalloc pages of an owner have made dirty (R287). -/
def State.writeBacks (s : State) (o : OwnerTag) : State := s.withMem (s.mem.evictAll (s.mem.owed o))

end Sys2Proof.Machine
end

