-- ==== Sys2Proof/Machine/Issue.lean ====
section
/-!
DEFINITION. Issue: ring pops latched (R97), interlocks (R128), what a syllable does when its guard, waits and
checks allow (R96, R321), the end of a bundle (R124, R130, R153, R189, R324), records (R322), the selector's
choice (R116), and the fetch that starts a bundle (R91).
-/
namespace Sys2Proof.Machine

/-! Pops (R97). -/

/-- A pop: field, ring, operand bytes, and whether it is a matrix operand. -/
def popOf : Opnd → Option (Nat × Fin 16 × Nat × Bool)
  | .xs f (.pop q) => some (f, q, 8, false)
  | .vs f (.pop q) => some (f, q, 256, false)
  | .ms f (.pop q) n => some (f, q, n, true)
  | _ => none

/-- Rings and pops as far as latched, and whether a ring wait holds the bundle. -/
structure Latch where
  rings : Vector Ring 16
  pops : List Pop
  waiting : Bool
deriving DecidableEq, Repr

/-- One operand latched: it takes the next entries of its ring (R163). An x operand takes one entry. -/
def Latch.one (m : Sparse Byte) (slot : Nat) (l : Latch) (o : Opnd) : Latch :=
  match popOf o with
  | none => l
  | some (f, q, n, mat) =>
    let r := l.rings[q]
    let k := if n = 8 ∧ !mat then 1 else r.need n
    let legal := r.lsize != 0 && (!mat || k ≤ r.entries)
    let value := if mat then 0 else ofBytes (readAll m (r.addrs r.rd.toNat n))
    { rings := l.rings.set q { r with rd := r.rd + BitVec.ofNat 32 k },
      pops := l.pops ++ [⟨slot, f, q, r, k, n, value⟩],
      waiting := l.waiting || (legal && r.filled < k) }

/-- The pops of all syllables, in slot order and field order (R97). -/
def latchAll (m : Sparse Byte) (rings : Vector Ring 16) (l : List (Slot × Instr)) : Latch :=
  l.foldl (fun acc p => p.2.operands.foldl (Latch.one m p.1.num) acc) ⟨rings, [], false⟩

/-! Interlocks (R128, R229). -/

/-- Whether a field reads or writes the register of a write in flight. -/
def touches (o : Opnd) (w : RegWrite) : Bool :=
  match o, w with
  | .xs _ (.reg n), .x m _ => n == m && m != 0
  | .xr n, .x m _ => n == m && m != 0
  | .xd n, .x m _ => n == m && m != 0
  | .vs _ (.reg n), .v m _ => n == m
  | .vr n, .v m _ => n == m
  | .vd n, .v m _ => n == m
  | .ps n, .p m _ => n == m && m != 0
  | .pd n, .p m _ => n == m && m != 0
  | _, _ => false

def RegWrite.isPred : RegWrite → Bool
  | .p _ _ => true
  | _ => false

/-- A syllable that touches every predicate: ctx.pred by CSR (R127), the stage predicates of LOOP and ENDT. -/
def touchesPreds : Instr → Bool
  | .csrrd _ _ k => k.toNat == 8
  | .csrwr _ _ _ k => k.toNat == 8
  | .csrset _ _ _ k => k.toNat == 8
  | .csrclr _ _ _ k => k.toNat == 8
  | .loop _ _ st _ => st != 0
  | .loopx _ _ _ st => st != 0
  | _ => false

def usesDivider : Instr → Bool
  | .div _ _ _ _ _ => true
  | .divu _ _ _ _ _ => true
  | .rem _ _ _ _ _ => true
  | .remu _ _ _ _ _ => true
  | .fdiv _ _ _ _ _ _ => true
  | .fsqrt _ _ _ _ _ => true
  | _ => false

/-- The interlock of one syllable whose guard is true (R128). -/
def interlocked (c : Ctx) (i : Instr) : Bool :=
  c.flight.any fun r =>
    (i.operands.any fun o => touches o r.write) || (touchesPreds i && r.write.isPred) || (usesDivider i && r.divider)

/-- A guard whose predicate is still in flight (R128). -/
def guardBusy (c : Ctx) (i : Instr) : Bool :=
  match i.guard? with
  | some g => c.flight.any fun r => touches (.ps g.idx) r.write
  | none => false

/-! The bundle in issue. -/

/-- The snapshot of R130 is taken, and the pops of the syllables whose guards are true are latched; a guard still in
flight counts none, and holds the bundle (R128). -/
def State.openIssue (s : State) (g : Agent) (hdr n : Nat) (syls : List (Slot × Instr)) : State × Latch :=
  let c := s.ctx g
  let mem := match g with | .ctx t _ => (s.tile t).mem | .drover _ => TileMem.reset
  let s1 := { s with issue := ⟨g, 0, hdr, n, c, mem, [], syls, false⟩ }
  let l := latchAll mem.spad c.bank.q (syls.filter fun p => s1.guardTrue p.2 && !guardBusy c p.2)
  ({ s1 with issue := { s1.issue with pops := l.pops } }, l)

/-- A wait that depends on the value of a register operand. -/
def waitsOnValue : Instr → Bool
  | .rrel _ _ _ _ => true
  | .mgath _ _ _ _ _ _ => true
  | .cntwait _ _ _ => true
  | .mrgdrnDrain _ _ _ => true
  | _ => false

/-- The waits of one syllable of the bundle whose guard is known to be true, that behind an acquire (R288) among them: a syllable held by an interlock has no
wait yet that depends on the value it waits for (R128). -/
def State.syllableWaits (s : State) (p : Slot × Instr) : List Wait :=
  s.acquireWait p.2 ++
  if interlocked s.issue.ctx p.2 && waitsOnValue p.2 then []
  else waitsOf { s with issue := { s.issue with slot := p.1.num } } p.2

/-- Every wait of the bundle in issue (R117, R128, R321). A syllable whose guard is in flight has no wait of its own
yet. -/
def State.bundleWaits (s : State) (l : Latch) : List Wait :=
  let c := s.issue.ctx
  let on := s.issue.todo.filter fun p => s.guardTrue p.2 && !guardBusy c p.2
  waitWhen l.waiting .engine ++
  waitWhen (s.issue.todo.any fun p => guardBusy c p.2) .stall ++
  waitWhen (on.any fun p => interlocked c p.2) .stall ++
  (on.map s.syllableWaits).flatten

/-- The first failed issue check in slot order, with its slot (R321). -/
def State.bundleCheck (s : State) : List (Slot × Instr) → Option (Nat × Verdict)
  | [] => none
  | (sl, i) :: r =>
    let s' := { s with issue := { s.issue with slot := sl.num } }
    if s'.guardTrue i then
      match checkOf s' sl.num i with
      | some v => some (sl.num, v)
      | none => s.bundleCheck r
    else s.bundleCheck r

/-- A failed check: the trap at the bundle, or the system fault (R320, R325). -/
def State.fail (s : State) (slot : Nat) : Verdict → State
  | .trap code i0 i1 =>
    let (w, s) := s.orFresh i0
    s.raise s.issue.agent ⟨code, false, slot, s.issue.hdr, 0, w, BitVec.ofNat 64 i1, none, none⟩
  | .fault code => s.sysFault s.issue.agent code

/-! The handle interlock of unbacked pages (R189). -/

/-- The low bits of an atomic's operand. -/
def lowBytes (t : Ty) (v : Word) : Nat := v.toNat % 2 ^ t.bits

/-- The store or atomic that a syllable makes in an unbacked page, as trap.keep would hold it (R189). -/
def State.unbackedStore (s : State) (p : Slot × Instr) : Option Kept :=
  let s := { s with issue := { s.issue with slot := p.1.num } }
  let kept (k : Kept) : Option Kept := if (s.bank.handle k.h).valid && (s.bank.handle k.h).unb then some k else none
  if s.issue.agent.isDrover then none
  else
    match p.2 with
    | .mst _ t d a h disp => kept ⟨.store, h, (s.memOff a disp).toNat, bytesOf t.width (s.X 0 d).toNat, none, .rlx, .tile⟩
    | .mstv _ d a h disp => kept ⟨.store, h, (s.memOff a disp).toNat, bytesOf 256 (s.V 0 d).toNat, none, .rlx, .tile⟩
    | .amo _ t d a b o ord sc h =>
      kept ⟨.atomic t.width o (lowBytes t (s.X 2 b)), h, (s.X 1 a).toNat, List.replicate t.width 0, some d, ord, sc⟩
    | .amocas _ t d a b c ord sc h =>
      kept ⟨.cas t.width (lowBytes t (s.X 2 b)) (lowBytes t (s.X 3 c)), h, (s.X 1 a).toNat, List.replicate t.width 0, some d,
        ord, sc⟩
    | _ => none

/-- The store or atomic of the bundle in issue in an unbacked page, with the answer of its home slice if it has come
(R189). -/
def State.allocation (s : State) : Option (Kept × Option Bool) :=
  ((s.issue.todo.filter fun p => s.guardTrue p.2).findSome? s.unbackedStore).map fun k =>
    (k, (s.ctx s.issue.agent).ask.bind fun a => if a.hdr = s.issue.hdr ∧ a.kept = k then a.answer else none)

/-- The access that the home slice has refused the bundle in issue. -/
def State.refusedStore (s : State) : Option Kept :=
  match s.allocation with
  | some (k, some false) => some k
  | _ => none

/-- The bundle in issue asks the home slice, and waits in the handle interlock, an engine wait (R117, R189; log 76). -/
def State.askHome (s : State) (k : Kept) : State :=
  match s.issue.agent with
  | .drover _ => s
  | .ctx t c =>
    (s.modTile t fun T =>
      Tile.modCtx { T with serial := T.serial + 1 } c fun x => { x with ask := some ⟨T.serial, s.issue.hdr, k, none⟩ }).blockAt t c

/-- Waits and checks have passed: the bundle issues (R97). The pops happen together, the issue is counted, and the
tail is opened; a store that its home slice has refused is kept there (R189). -/
def State.commit (s : State) (l : Latch) : State :=
  let g := s.issue.agent
  let s := s.modCtx g fun c =>
    { c with
      bank := { c.bank with q := l.rings }, issued := c.issued + 1, marks := none, stall := 0, ask := none,
      tail := some ⟨s.issue.hdr, s.issue.hdr + 1 + s.issue.n, none, none, s.refusedStore, false, false, .none, []⟩ }
  { s with issue := { s.issue with cleared := true } }

/-- The tail of the issuing context changed. -/
def State.modTail (s : State) (f : Tail → Tail) : State :=
  s.modCtx s.issue.agent fun c => { c with tail := c.tail.map f }

/-- A wait that follows the issue. -/
def State.addWait (s : State) (w : PostWait) : State := s.modTail fun t => { t with waits := t.waits ++ [w] }

/-- The issuing context blocks or stalls. -/
def State.hold (s : State) (ws : List Wait) : State :=
  match s.issue.agent with
  | .drover _ => s
  | .ctx t c =>
    if ws.contains .engine || (ws.contains .panel && 8 ≤ (s.ctx (.ctx t c)).stall) then s.blockAt t c
    else if ws.contains .panel then s.modCtx (.ctx t c) fun k => { k with stall := k.stall + 1 }
    else s

/-- A slot for an instruction standing alone. -/
def aloneSlot (i : Instr) : Slot :=
  match i.slotClass with
  | some .k => .k
  | some .i => .i0
  | some .a => .a
  | some .v => .v0
  | some .m => .m
  | some .e => .e
  | none => .k

/-- What a syllable does: nothing when its guard is false (R96). Within a bundle whose waits and checks have
passed it performs; standing alone it makes them first (R321). -/
def syllable (i : Instr) (perform : State → State) (s : State) : Out :=
  if s.issue.cleared then
    if s.guardTrue i then .next (perform s) else .next s
  else
    let (s1, l) := s.openIssue s.issue.agent s.issue.hdr 1 [(aloneSlot i, i)]
    let s1 := { s1 with issue := { s1.issue with slot := (aloneSlot i).num } }
    if !s1.guardTrue i then .next { s1 with issue := { s1.issue with todo := [] } }
    else
      match s1.bundleWaits l with
      | [] =>
        match checkOf s1 (aloneSlot i).num i, s1.allocation with
        | some v, _ => .next (s1.fail (aloneSlot i).num v)
        | none, some (k, none) => .next (s1.askHome k)
        | none, _ => .next (perform { s1.commit l with issue := { (s1.commit l).issue with todo := [], cleared := false } })
      | ws => .next (s1.hold ws)

/-! The end of a bundle. -/

/-- The action of a closing point on the top entry (R124): the bank after it, and where to go. -/
def closeLoop (b : Bank) (hdr : Nat) : Bank × Option Nat :=
  match b.loops with
  | [] => (b, none)
  | e :: below =>
    if e.stop ≠ hdr then (b, none)
    else
      let go := e.i < e.n && !e.closed
      let e' := if go then { e with i := e.i + 1 } else e
      if e.stages = 0 then
        if go then ({ b with loops := e' :: below }, some e.start) else ({ b with loops := below }, none)
      else
        let rot := (b.s.toNat * 2 + go.toNat) % 2 ^ e.stages
        let s' := BitVec.ofNat 8 (b.s.toNat / 2 ^ e.stages * 2 ^ e.stages + rot)
        if rot = 0 then ({ b with s := s', loops := below }, none)
        else ({ b with s := s', loops := e' :: below }, some e.start)

/-- Whether a header index is the closing point of the top entry (R124). -/
def Bank.closesAt (b : Bank) (hdr : Nat) : Bool :=
  match b.loops with
  | [] => false
  | e :: _ => e.stop == hdr

/-- Whether an access of the context below a serial is still unperformed (R286). -/
def Tile.outstanding (T : Tile) (c : Fin 4) (upTo : Nat) : Bool :=
  T.accs.any fun a => a.ctx = c && a.id < upTo && a.pieces.any fun p => !p.done

/-- Whether a wait that followed the issue still stands. That of a collective that faulted stands until its record
is delivered (R296, R322). -/
def State.waitStands (s : State) (t : TileId) (c : Fin 4) : PostWait → Bool
  | .accesses n => (s.tile t).outstanding c n
  | .hostOrder n => (s.tile t).outstanding c n
  | .alloc id => (s.tile t).accs.any fun a => a.id = id && !a.admitted
  | .reply id => s.calls.any fun k => k.id = id
  | .e5 id =>
    ((s.tile t).e5.any fun e => e.serial = id) || (((s.tile t).ctx c).records.any fun r => r.entry == some id)
  | .handle h => (((s.tile t).ctx c).bank.handle h).pending

/-- Engine waits among them (R117, R154, R189, R286, R292): all but none. -/
def Ctx.waiting (c : Ctx) : Bool :=
  match c.tail with
  | some t => !t.waits.isEmpty
  | none => false

/-- The bytes that a kept access writes. -/
def Kept.size (k : Kept) : Nat :=
  match k.kind with | .store => k.data.length | .atomic w _ _ => w | .cas w _ _ => w | _ => 0

/-- The checks of R186 made again when ERET performs the kept access against the page as it then stands (R189, R324;
log 75). -/
def Kept.check (k : Kept) (b : Bank) : Option Verdict :=
  handleCheck b k.h true (k.kind != .store) true k.off k.size (if k.size = 256 then 4 else k.size)

/-- The access that a kept store or atomic makes through its handle as it stands, in parts within aligned 8-byte units
(R189, R285). -/
def Kept.access (k : Kept) (T : Tile) (c : Fin 4) : Access :=
  let h := (T.ctx c).bank.handle k.h
  { id := T.serial, ctx := c, kind := k.kind, owner := T.mem.bnd.owner, hdl := k.h, off := k.off, unb := h.unb,
    admitted := !h.unb, ord := k.ord, sc := k.sc, pieces := h.pieces k.off k.size, data := k.data,
    dest := match k.ring with | some q => .ring q ((T.ctx c).bank.ring q).res 1 | none => .none,
    landed := false, err := false }

/-- The kept access becomes an access again (R324, step 2). -/
def State.sendKept (s : State) (t : TileId) (c : Fin 4) (k : Kept) : State × Nat :=
  let id := (s.tile t).serial
  let s := s.modTile t fun T => { T with accs := T.accs ++ [k.access T c], serial := T.serial + 1 }
  let s := match k.ring with
    | some q => s.modCtx (.ctx t c) (·.modBank (·.modRing q fun r => { r with res := r.res + 1 }))
    | none => s
  (s, id)

/-- Where the context goes when its bundle has ended: the loop action unless a transfer was taken (R124), the
from index of a transfer or fall-through (R91, R99). -/
def Ctx.goOn (c : Ctx) (tl : Tail) : Ctx :=
  match tl.target with
  | some p => { c with pc := p, src := tl.hdr, tail := none }
  | none =>
    match closeLoop c.bank tl.hdr with
    | (b, some p) => { c with bank := b, pc := p, src := tl.hdr, tail := none }
    | (b, none) => { c with bank := b, pc := tl.fall, src := tl.hdr, tail := none }

/-- ENDT takes effect (R150): the context becomes idle, and its node ends when its condition words are applied. -/
def State.endTask (s : State) (t : TileId) (c : Fin 4) : State :=
  let node := ((s.ctx (.ctx t c)).node).toNat
  s.modTile t fun T =>
    let T := T.modCtx c fun k =>
      { k with bank := { k.bank with loops := [], s := 0 }, tail := none, sel := .idle }
    ({ T with pr := { T.pr with nodes := setAt T.pr.nodes node fun n => { n with ended := true } } }).giveUp c

/-- ERET's steps 3 to 6, or the delivery that replaces the transfer when the kept access was refused again (R324), or
when a store of ERET's own bundle was refused and no kept access stands in its place (R189; log 75). -/
def State.finishEret (s : State) (g : Agent) (tl : Tail) : State :=
  let c := s.ctx g
  let ret := c.trap.ret.toNat
  let s := match g, c.trap.queue with
    | .ctx t _, some q =>
      s.modTile t fun T => { T with queues := T.queues.set q ((T.queues[q]).map fun (e : CopyEntry) => { e with stopped := none }) }
    | _, _ => s
  let s := s.modCtx g fun c => { c.leave with pc := ret, src := tl.hdr, tail := none }
  let refusal (s : State) (k : Kept) : State :=
    s.raise g ⟨0x08, false, 3, ret, 0, BitVec.ofNat 64 k.h.val, BitVec.ofNat 64 k.off, none, none⟩
  match tl.eret, (s.ctx g).trap.keep, tl.refused with
  | .again, some k, _ => refusal s k
  | _, _, some k => refusal (s.modCtx g fun c => { c with trap := { c.trap with keep := some k } }) k
  | _, _, none => s

/-- ERET after its waits (R324): results land, the kept access is sent and decided, then steps 3 to 6. -/
def State.eretStep (s : State) (g : Agent) (tl : Tail) : State :=
  let c := s.ctx g
  if !c.flight.isEmpty then s
  else
    match tl.eret, c.trap.keep, g with
    | .begun, some k, .ctx t x =>
      if (c.bank.handle k.h).pending then s.modCtx g fun c => { c with tail := some { tl with waits := [.handle k.h] } }
      else if (match k.ring with | some q => (c.bank.ring q).room < 1 || 64 ≤ (s.tile t).loads | none => false) then s
      else
        match k.check c.bank with
        | some v => State.fail { s with issue := { s.issue with agent := g, hdr := tl.hdr } } 0 v
        | none =>
          let (s, id) := s.sendKept t x k
          s.modCtx g fun c => { c with tail := some { tl with eret := .sent id, waits := [.alloc id] } }
    | .sent _, some _, _ => (s.modCtx g fun c => { c with trap := { c.trap with keep := none } }).finishEret g tl
    | _, _, _ => s.finishEret g tl

/-- What remains when waits are over and results have landed: ERET, ENDT, the software trap and the refused access
after the loop action (R153, R189), YIELD, or the next bundle. An ENDT waits for the results in flight, and the tile is the
next ready context's meanwhile (R116, R150). Of an ENDT beside a store that was refused (R189) no rule says which comes
first: the task ends, the access stays kept, and reservation exceeded is not raised (log 101). -/
def State.endTail (s : State) (g : Agent) (tl : Tail) : State :=
  if tl.eret ≠ .none then s.eretStep g tl
  else if tl.ends then
    match g with
    | .ctx t c =>
      if (s.ctx g).flight.isEmpty then s.endTask t c
      else (s.modCtx g fun k => { k with tail := some tl }).blockAt t c
    | .drover _ => s
  else
    let s := s.modCtx g (·.goOn tl)
    let c := s.ctx g
    match tl.soft, tl.refused with
    | some (slot, code), _ =>
      s.raise g ⟨0x04, false, slot, c.pc, 0, BitVec.ofNat 64 code.toNat, 0, none, none⟩
    | none, some k =>
      s.raise g ⟨0x08, false, 3, c.pc, 0, BitVec.ofNat 64 k.h.val, BitVec.ofNat 64 k.off, none, none⟩
    | none, none =>
      match g with
      | .ctx t x =>
        if !tl.yields then s
        else if (s.tile t).stopReq then s.stopAt t x else s.modTile t (·.yield x)
      | .drover _ => s

/-- Whether the closing action must still wait for a predicate write (R130). -/
def Ctx.predsInFlight (c : Ctx) : Bool := c.flight.any fun r => r.write.isPred

/-- A bundle that still waits, whose YIELD or ENDT gives the tile to the next ready context at once (R116). Beside a wait
that follows its issue the context blocks, or stops under a pending curtain (R117, R328). -/
def State.leaveTile (s : State) (g : Agent) (tl : Tail) : State :=
  match g with
  | .drover _ => s
  | .ctx t c =>
    if tl.ends then s.blockAt t c
    else if tl.yields && tl.soft.isNone && tl.refused.isNone && tl.eret == .none then
      let s := s.modCtx g fun k => { k with tail := some { tl with yields := false } }
      if !tl.waits.isEmpty then s.blockAt t c
      else if (s.tile t).stopReq then s.stopAt t c else s.modTile t (·.yield c)
    else s

/-- The end of the bundle whose tail stands: waits that are over go, that of a FENCE at system scope with the write-back
of what stores to nalloc pages made dirty (R287), and when none is left and, at a closing
point, the predicates have landed (R130), it takes effect. -/
def State.endBundle (s : State) (g : Agent) : State :=
  match (s.ctx g).tail with
  | none => s
  | some tl =>
    let left := match g with
      | .ctx t c => tl.waits.filter fun w => s.waitStands t c w
      | .drover _ => []
    let passed (w : PostWait) : Bool := match w with | .hostOrder _ => !left.contains w | _ => false
    let s := match g with
      | .ctx t _ => if tl.waits.any passed then s.writeBacks (s.tile t).mem.bnd.owner else s
      | .drover _ => s
    let tl := { tl with waits := left }
    if !left.isEmpty || ((s.ctx g).bank.closesAt tl.hdr && tl.target.isNone && (s.ctx g).predsInFlight) then
      (s.modCtx g fun c => { c with tail := some tl }).leaveTile g tl
    else s.endTail g tl

/-! Records (R322). -/

/-- The wait of the context is one that a record ends: none of the standing requests of R322, but for the collective
fault of its own entry. Those of ERET stand in a handler, which takes no record. -/
def Tail.open_ (tl : Tail) (q : TrapReq) : Bool :=
  tl.waits.all fun w =>
    match w with
    | .accesses _ => true
    | .hostOrder _ => true
    | .alloc _ => false
    | .reply _ => false
    | .handle _ => false
    | .e5 id => q.entry == some id

/-- Whether the context can take a record now, and with which return index (R322). -/
def Ctx.recordRet (c : Ctx) (q : TrapReq) : Option Nat :=
  if c.trap.handling || c.pending.isSome then none
  else
    match c.sel, c.tail with
    | .idle, _ => none
    | .stopped, _ => none
    | _, none => some c.pc
    | _, some tl => if tl.open_ q && !tl.waits.isEmpty && tl.eret = .none then some tl.hdr else none

/-- The oldest record that the context can take, delivered (R322). -/
def State.takeRecord (s : State) (t : TileId) (c : Fin 4) : Option State :=
  let k := s.ctx (.ctx t c)
  match k.records with
  | [] => none
  | q :: rest =>
    match k.recordRet q with
    | none =>
      -- a collective fault ends its own wait though an older record is held back
      match rest.find? fun r => r.entry.isSome && (k.recordRet r).isSome with
      | none => none
      | some r => some (deliverRec k r (k.records.filter fun x => x != r))
    | some _ => some (deliverRec k q rest)
where
  deliverRec (k : Ctx) (q : TrapReq) (rest : List TrapReq) : State :=
    let ret := (k.recordRet q).getD k.pc
    let s := s.modCtx (.ctx t c) fun x =>
      { x with records := rest, tail := none, pc := ret, marks := none,
               sel := if x.sel = .blocked then .ready else x.sel }
    s.raise (.ctx t c) { q with ret := ret }

/-! Fetch (R91). -/

/-- The trap of a refused fetch (R91, R320). -/
def State.fetchTrap (s : State) (g : Agent) (pc src : Nat) : FetchError → State
  | .target => s.raise g ⟨0x02, false, 0xFF, pc, src, 0, 0, none, none⟩
  | .header => s.raise g ⟨0x01, false, 0xFF, pc, 0, 0, 0, none, none⟩
  | .syllable sl w => s.raise g ⟨0x01, false, sl.num, pc, 0, BitVec.ofNat 64 w, 0, none, none⟩

/-- The syllable at an index of an instruction store (R88). -/
def storeAt (m : Sparse Word) (k : Nat) : Nat := (Sparse.get 0 m k).toNat

/-- CPYWAIT takes its mark when it first waits (R206). -/
def State.markCopies (s : State) (t : TileId) (c : Fin 4) : State :=
  let k := s.ctx (.ctx t c)
  let names := (s.issue.todo.filter fun p => s.guardTrue p.2 && !guardBusy s.issue.ctx p.2).any fun p =>
    match p.2 with | .cpywait _ _ => true | _ => false
  if names && (k.mark s.issue.hdr).isNone then
    s.modCtx (.ctx t c) fun x => { x with marks := some (s.issue.hdr, 0, (s.tile t).serial) }
  else s

/-- The bundle at the program counter of a context: fetched, held, trapped, or issued (R91, R321). Answers the
state and the issue delay of the bundle if it issued. -/
def State.tryIssue (s : State) (g : Agent) (b : Bundle) : State × Option Nat :=
  let (s, l) := s.openIssue g b.hdr b.n b.syls
  match s.bundleWaits l with
  | [] =>
    match s.bundleCheck b.syls, s.allocation with
    | some (slot, v), _ => (s.fail slot v, none)
    | none, some (k, none) => (s.askHome k, none)
    | none, _ => (s.commit l, some b.delay)
  | ws =>
    let s := match g with | .ctx t c => s.markCopies t c | .drover _ => s
    (s.hold ws, none)

/-- The waits of the bundle at the program counter of a context; none where no bundle is fetched there (R117). -/
def State.waitsAt (s : State) (t : TileId) (c : Fin 4) : List Wait :=
  match fetch false (storeAt (s.tile t).mem.store) 16383 ((s.tile t).ctx c).pc with
  | .error _ => []
  | .ok b => let (s1, l) := s.openIssue (.ctx t c) b.hdr b.n b.syls; s1.bundleWaits l

/-- A bundle waits for its home slice's answer (R189). -/
def Ctx.asking (c : Ctx) : Bool := c.ask.any fun a => a.answer.isNone

/-- Blocked contexts whose wait is over become ready (R116, R117); one that has issued ENDT ends its task (R150). -/
def State.wake (s : State) (t : TileId) (c : Fin 4) : State :=
  let k := (s.tile t).ctx c
  if k.sel ≠ .blocked then s
  else if let some s' := s.takeRecord t c then s'
  else
    match k.tail with
    | some tl =>
      if tl.ends then s.endBundle (.ctx t c)
      else if tl.waits.any fun w => s.waitStands t c w then s else s.modTile t (·.setSel c .ready)
    | none => if k.asking || !(s.waitsAt t c).isEmpty then s else s.modTile t (·.setSel c .ready)

/-- Nothing is issued this cycle: the issue is closed. -/
def State.noIssue (s : State) : State := { s with issue := { s.issue with todo := [], cleared := false } }

/-- A context's turn: results land, an ended bundle is finished, a pending trap or a due record is delivered, and
otherwise its next bundle is tried (R116, R321, R322). Under a pending curtain a wait, a point or a refused issue stops it,
as a delivery does (R328), and past 12,000 counted cycles its next bundle boundary is the point-overrun fault, whether a
point or a delivery stands there or not (R330). -/
def State.turn (s : State) (t : TileId) (c : Fin 4) : State × Option Nat :=
  let g := Agent.ctx t c
  let s := if (s.ctx g).tail.isSome then s.endBundle g else s
  let k := s.ctx g
  let T := s.tile t
  if k.sel ≠ .ready ∨ T.run ≠ some c then (s.noIssue, none)
  else if T.stopReq && 12000 < T.past && k.tail.isNone then ((s.sysFault g 0x28).noIssue, none)
  else
    match k.pending, s.takeRecord t c, k.tail with
    | some q, _, _ => ((if k.flight.isEmpty then s.deliver g q else s).noIssue, none)
    | none, some s, _ => (s.noIssue, none)
    | none, none, some tl =>
      (if T.stopReq || !tl.waits.isEmpty then (s.blockAt t c).noIssue else s.noIssue, none)
    | none, none, none =>
      match fetch false (storeAt T.mem.store) 16383 k.pc with
      | .error e => ((s.fetchTrap g k.pc k.src e).noIssue, none)
      | .ok b =>
        if T.stopReq && b.point then ((if k.flight.isEmpty then s.stopAt t c else s).noIssue, none)
        else
          match s.tryIssue g b with
          | (s, some d) => (s, some d)
          | (s, none) => ((if T.stopReq && (s.ctx g).pending.isNone then s.stopAt t c else s).noIssue, none)

/-- A tile whose contexts have all stopped under a curtain does not count cycles (R334). -/
def Tile.frozen (T : Tile) : Bool :=
  T.stopReq && T.ctxs.toList.all fun c => (c.sel = .stopped || c.sel = .idle) && c.flight.isEmpty && c.fault.isNone && c.owed.isEmpty

/-- The queues whose head is a dir-2 copy that injects in this cycle of the scene (R198, R356). -/
def Tile.injections (T : Tile) : List (Fin 4) :=
  ([0, 1, 2, 3] : List (Fin 4)).filter fun q =>
    match T.queues[q] with
    | e :: _ =>
      match e.work with
      | .copy r => r.dir == 2 && !e.done && !e.held && e.stopped.isNone && e.off < r.len && e.entered ≤ T.sceneCycle && T.sceneCycle == r.dst % 2 ^ 16 + e.off / 128
      | _ => false
    | [] => false

/-- The queues of a tile whose flits are due at some router in this cycle of the scene, each once (R356). -/
def State.dueCopies (s : State) (t : TileId) : List (Fin 4) :=
  match (s.tile t).pad.bind s.pad? with
  | none => []
  | some p => ((p.net.flits.filter fun f => f.src = s.rank t && f.cycle ≤ (s.tile t).sceneCycle).map (·.q)).eraseDups

/-- What a tile's cycle of the scene injects, and has taken on its way, comes next (R198, R356). -/
def State.inject (s : State) (t : TileId) : State :=
  let own := (s.tile t).injections
  let due := (s.dueCopies t).filter fun x => !own.contains x
  { s with agenda := (due ++ own).map (fun q => .dir2Inject t q) ++ s.agenda }

/-- One cycle of a tile (R116): the scene's cycle, with what it injects, and, unless a curtain has stopped it (R299, R334),
the tile's are counted, due results land, woken contexts become ready, a free tile takes the first ready context, and the
running one has its turn. -/
def State.tileCycle (s : State) (t : TileId) : State :=
  let s := (s.modTile t fun T => { T with sceneCycle := T.sceneCycle + 1 }).inject t
  if (s.tile t).frozen then s.noIssue
  else
    let s := s.modTile t fun T =>
      let T := { T with cycle := T.cycle + 1 }
      { T with ctxs := T.ctxs.map (·.landDue T.cycle) }
    let s := [0, 1, 2, 3].foldl (fun s (c : Fin 4) => s.reportDue t c) s
    let s := s.wake t 0
    let s := s.wake t 1
    let s := s.wake t 2
    let s := s.wake t 3
    let T := s.tile t
    if 0 < T.gap then
      (s.modTile t fun T => { T with gap := T.gap - 1, past := T.past + T.stopReq.toNat }).noIssue
    else
      let s := match T.run with
        | some _ => s
        | none =>
          match ([T.last + 1, T.last + 2, T.last + 3, T.last].find? fun (k : Fin 4) => (T.ctx k).sel = Sel.ready) with
          | some k => s.modTile t fun T => { T with run := some k }
          | none => s
      match (s.tile t).run with
      | none => s.noIssue
      | some c =>
        match s.turn t c with
        | (s, some d) => s.modTile t fun T => { T with gap := d, past := T.past + T.stopReq.toNat }
        | (s, none) => s

/-- The syllable numbers of a drover thread's store. -/
def droverLast : Nat := 16383

/-- One cycle of a drover thread (R89, R106, R157, R327). -/
def State.droverCycle (s : State) (n : SlotId) : State :=
  let g := Agent.drover n
  let s := s.modDrover n fun d => { d with cycle := d.cycle + 1, ctx := d.ctx.landDue (d.cycle + 1) }
  if (s.drover n).halted then s.noIssue
  else if 0 < (s.drover n).gap then (s.modDrover n fun d => { d with gap := d.gap - 1 }).noIssue
  else
    let s := if (s.ctx g).tail.isSome then s.endBundle g else s
    let k := s.ctx g
    match k.pending, k.tail with
    | some q, _ => ((if k.flight.isEmpty then s.deliver g q else s)).noIssue
    | none, some _ => s.noIssue
    | none, none =>
      match fetch true (storeAt (s.drover n).store) droverLast k.pc with
      | .error e => (s.fetchTrap g k.pc k.src e).noIssue
      | .ok b =>
        match s.tryIssue g b with
        | (s, some d) => s.modDrover n fun k => { k with gap := d }
        | (s, none) => s.noIssue

end Sys2Proof.Machine
end

