-- ==== Sys2Proof/Machine/Access.lean ====
section
/-!
DEFINITION. The A class (08_access_and_copy.md, R175 to R193): scratchpad accesses, windows and rings, handles,
memory through handles, scale queues and DISC. A memory access enters the tile's list of accesses at issue; it is
performed at its home later (R284).
-/
namespace Sys2Proof.Machine

/-! Scratchpad (R175 to R179). -/

/-- The extension of a loaded value of type t (R176). -/
def loadExt (t : Ty) (u : Bool) (v : Nat) : Word :=
  if u || !t.isInt then BitVec.ofNat 64 (v % 2 ^ t.bits) else toWord (sext t.bits v)

/-- The window offset of the J forms: X(a) + SExt(disp, 32) (R176). -/
def State.winOff (s : State) (a : Src) (disp : BitVec 32) : Int := (s.X 1 a).toNat + disp.toInt

/-- A v result of latency L (R229). -/
def State.vOut (s : State) (d : Fin 32) (v : Nat) (lat : Nat) : State :=
  s.result (.v d (BitVec.ofNat 2048 v)) 0 .vector lat

/-- LDS (R176). -/
def execLds (g : Guard) (t : Ty) (d : Fin 32) (a : Src) (w : Fin 8) (u : Bool) (disp : BitVec 32) : State → Out :=
  syllable (.lds g t d a w u disp) fun s =>
    s.result (.x d (loadExt t u (spRead s.issue.mem.spad (s.bank.window w) (s.winOff a disp) t.width))) 0 .scalar 2

/-- STS (R176). -/
def execSts (g : Guard) (t : Ty) (d : Src) (a : Src) (w : Fin 8) (disp : BitVec 32) : State → Out :=
  syllable (.sts g t d a w disp) fun s =>
    s.modMem s.homeTile fun m => spWrite m (s.bank.window w) (s.winOff a disp) t.width (s.X 0 d).toNat

/-- LDV (R176). -/
def execLdv (g : Guard) (d : Fin 32) (a : Src) (w : Fin 8) (disp : BitVec 32) : State → Out :=
  syllable (.ldv g d a w disp) fun s =>
    s.vOut d (spRead s.issue.mem.spad (s.bank.window w) (s.winOff a disp) 256) 2

/-- STV (R176). -/
def execStv (g : Guard) (d : Src) (a : Src) (w : Fin 8) (disp : BitVec 32) : State → Out :=
  syllable (.stv g d a w disp) fun s =>
    s.modMem s.homeTile fun m => spWrite m (s.bank.window w) (s.winOff a disp) 256 (s.V 0 d).toNat

/-- LDVS (R177). -/
def execLdvs (g : Guard) (t : Ty) (d : Fin 32) (a : Src) (b : Src) (w : Fin 8) : State → Out :=
  syllable (.ldvs g t d a b w) fun s =>
    s.vOut d (packElems t.bits (tab (256 / t.width) fun j =>
      spRead s.issue.mem.spad (s.bank.window w) ((s.X 1 a).toNat + (j : Int) * (s.X 2 b).toInt) t.width)) 4

/-- GATH (R178). -/
def execGath (g : Guard) (d : Fin 32) (a : Src) (b : Src) (w : Fin 8) : State → Out :=
  syllable (.gath g d a b w) fun s =>
    s.vOut d (packElems 32 (tab 64 fun j =>
      let o := elem 32 (s.V 1 a).toNat j
      if bit o 31 then 0
      else spRead s.issue.mem.spad (s.bank.window w) ((s.X 2 b).toNat + fld o 0 31 : Nat) 4)) 4

/-- SCAT (R178): lanes in ascending order. -/
def execScat (g : Guard) (d : Src) (a : Src) (b : Src) (w : Fin 8) : State → Out :=
  syllable (.scat g d a b w) fun s =>
    s.modMem s.homeTile fun m =>
      (List.range 64).foldl (fun m j =>
        let o := elem 32 (s.V 1 a).toNat j
        if bit o 31 then m
        else spWrite m (s.bank.window w) ((s.X 2 b).toNat + fld o 0 31 : Nat) 4 (elem 32 (s.V 0 d).toNat j)) m

/-! Windows and rings (R180 to R182). -/

/-- WINSET (R180). -/
def execWinset (g : Guard) (d : Fin 8) (a : Src) (b : Src) : State → Out :=
  syllable (.winset g d a b) fun s =>
    s.modBank fun k => { k with w := k.w.set d ⟨(s.X 1 a).setWidth 20, (s.X 2 b).setWidth 21⟩ }

/-- RINGSET (R181). -/
def execRingset (g : Guard) (d : Fin 16) (a : Src) (lsize : BitVec 5) (esz : BitVec 4) : State → Out :=
  syllable (.ringset g d a lsize esz) fun s =>
    s.modBank (·.modRing d fun _ => ⟨(s.X 1 a).setWidth 20, lsize, esz, 0, 0, 0, 0, []⟩)

/-- RADV (R182). -/
def execRadv (g : Guard) (d : Fin 16) (a : Src) (n : BitVec 17) : State → Out :=
  syllable (.radv g d a n) fun s =>
    let k := BitVec.ofNat 32 ((s.X 1 a).toNat + n.toNat)
    s.modBank (·.modRing d fun r => { r with prod := r.prod + k, res := r.res + k })

/-- RREL (R182). -/
def execRrel (g : Guard) (d : Fin 16) (a : Src) (n : BitVec 17) : State → Out :=
  syllable (.rrel g d a n) fun s =>
    let k := BitVec.ofNat 32 ((s.X 1 a).toNat + n.toNat)
    s.modBank (·.modRing d fun r => { r with rel := r.rel + k })

/-! Handles (R183, R184). -/

/-- XLT (R183): the walk is started; the handle waits for it. -/
def execXlt (g : Guard) (d : Fin 16) (a : Src) : State → Out :=
  syllable (.xlt g d a) fun s =>
    (s.modBank (·.modHandle d fun h => { h with pending := true })).modTile s.homeTile fun T =>
      { T with walks := T.walks ++ [⟨s.issuer, d, (s.X 1 a).toNat⟩] }

/-- HREL (R184). -/
def execHrel (g : Guard) (d : Fin 16) : State → Out :=
  syllable (.hrel g d) fun s => s.modBank (·.modHandle d fun _ => Handle.launch)

/-- The handle image (R166). -/
def Handle.image (h : Handle) : Word :=
  BitVec.ofNat 64 (pack [(h.valid.toNat, 63), (h.miss.toNat, 62), (h.large.toNat, 61), (h.nalloc.toNat, 60),
    (h.unb.toNat, 59), (h.write.toNat, 58), (h.read.toNat, 57), (h.owner.toNat, 48), (h.frame.toNat, 16),
    (h.slice.toNat, 10), (h.home.toNat, 6)])

/-- HINFO (R184). -/
def execHinfo (g : Guard) (d : Fin 32) (a : Fin 16) (va : Bool) : State → Out :=
  syllable (.hinfo g d a va) fun s =>
    let h := s.bank.handle a
    s.result (.x d (if va then BitVec.ofNat 64 (h.page.toNat * 2 ^ 16) else h.image)) 0 .scalar 1

/-! Memory through handles (R185 to R190). -/

/-- An access enters the tile's list, in issue order (R284). -/
def State.send (s : State) (a : Access) : State :=
  s.modTile s.homeTile fun T => { T with accs := T.accs ++ [{ a with id := T.serial }], serial := T.serial + 1 }

/-- An access through a handle of the context in issue; one through a cleared handle has no parts (R168). -/
def State.access (s : State) (k : Fin 16) (off n : Nat) (kind : AccKind) (data : List Byte) (dest : AccDest)
    (ord : MemOrd := .rlx) (sc : Scope := .tile) : Access :=
  let h := s.bank.handle k
  { id := 0, ctx := s.issuer, kind, owner := s.here.mem.bnd.owner, hdl := k, off, unb := h.unb, admitted := true, ord, sc,
    pieces := if h.valid then h.pieces off n else [], data, dest, landed := false, err := false }

/-- Ring entries claimed for an access (R165): the first, and how many. -/
def State.claim (s : State) (q : Fin 16) (k : Nat) : State :=
  s.modBank (·.modRing q fun r => { r with res := r.res + BitVec.ofNat 32 k })

/-- The destination that claims k entries of a ring. -/
def State.ringDest (s : State) (q : Fin 16) (n : Nat) : AccDest :=
  let r := s.bank.ring q
  .ring q (((s.ctx s.issue.agent).bank.ring q).res) (if n = 8 then 1 else r.need n)

/-- A load through a cleared handle sets miss (R168). -/
def State.missOn (s : State) (k : Fin 16) : State :=
  if (s.bank.handle k).valid then s else s.modBank (·.modHandle k fun h => { h with miss := true })

/-- A load of `n` bytes into a ring whose operand takes `m` bytes (R165, R187). -/
def State.loadTo (s : State) (q : Fin 16) (k : Fin 16) (off : Int) (n m : Nat) (kind : AccKind) : State :=
  let dest := s.ringDest q m
  let e := match dest with | .ring _ _ e => e | _ => 0
  ((s.send (s.access k off.toNat n kind (List.replicate n 0) dest)).claim q e).missOn k

/-- A store or atomic takes effect, unless its home slice has refused it (R189): it is then kept, and the
reservation-exceeded trap follows its bundle. Beside an ERET what trap.keep holds is decided by ERET's own steps (R324;
log 75). -/
def State.unlessRefused (s : State) (send : State) : State :=
  match (s.ctx s.issue.agent).tail with
  | some tl =>
    match tl.refused with
    | some k =>
      if tl.eret = .none then s.modCtx s.issue.agent fun c => { c with trap := { c.trap with keep := some k } } else s
    | none => send
  | none => send

/-- A store of bytes through a handle (R185, R189). -/
def State.storeTo (s : State) (k : Fin 16) (off : Int) (data : List Byte) : State :=
  s.unlessRefused (s.send (s.access k off.toNat data.length .store data .none))

/-- An atomic through a handle (R187, R189). -/
def State.atomicTo (s : State) (q : Fin 16) (k : Fin 16) (off n : Nat) (kind : AccKind) (ord : MemOrd) (sc : Scope) :
    State :=
  s.unlessRefused ((s.send (s.access k off n kind (List.replicate n 0) (s.ringDest q 8) ord sc)).claim q 1)

/-- The address of a drover access (R190). -/
def State.droverAddr (s : State) (a : Src) (disp : BitVec 31) : Nat := wrap 64 (s.memOff a disp)

/-- A byte of a drover thread's address map (R190): of a register of the device, or of drover memory. -/
def State.droverByte (s : State) (n : SlotId) (a : Nat) : Byte :=
  match droverPlace a with
  | .host k => s.readRegByte 0 k
  | .boundary t k => byteOf (s.tile t).mem.bnd.word k
  | .domain d k => byteOf (BitVec.ofNat 64 ((s.mem.dom d).droverReg (k / 8 * 8))) k
  | .memory => Sparse.get 0 (s.drover n).mem a

/-- Bytes of a drover thread's address map (R190). -/
def State.droverRead (s : State) (n : SlotId) (a len : Nat) : Nat := ofBytes (tab len fun j => s.droverByte n (a + j))

/-- A word of which a store gives some bytes. What the other bytes carry is open (log 94). -/
def State.storeWord (s : State) (bytes : List (Nat × Byte)) (off : Nat) : BitVec 64 × State :=
  let (w, s) := s.freshWord
  let b := tab 8 fun j => ((bytes.find? fun c => c.1 = off + j).map (·.2)).getD (BitVec.ofNat 8 (fld w.toNat (8 * j) 8))
  (BitVec.ofNat 64 (ofBytes b), s)

/-- A store to the word of a drover thread's address map at an address (R190): a write of a host register is the next step
(R35); rt.bnd and the registers of a domain take it at once (R60, R69). -/
def State.storeReg (s : State) (bytes : List (Nat × Byte)) (a : Nat) : State :=
  let (w, s) := s.storeWord bytes a
  match droverPlace a with
  | .host k => { s with agenda := .registerWrite 0 k w :: s.agenda }
  | .boundary t _ => s.modMem t fun m => { m with bnd := Boundary.ofWord w }
  | .domain d k =>
    let s := { s with mem := s.mem.modDom d fun D => D.droverSet (k / 8 * 8) w }
    if k / 8 * 8 = 0x38 then s.setHold d (w.getLsbD 0) else s
  | .memory => s

/-- Bytes stored into a drover thread's address map (R190). -/
def State.droverWrite (s : State) (n : SlotId) (a : Nat) (data : List Byte) : State :=
  let l := (tab data.length (a + ·)).zip data
  let s := s.modDrover n fun k => { k with mem := Sparse.puts 0 k.mem (l.filter fun c => droverPlace c.1 = .memory) }
  let r := l.filter fun c => droverPlace c.1 ≠ .memory
  ((r.map fun c => c.1 / 8 * 8).eraseDups.reverse).foldl (fun s off => s.storeReg r off) s

/-- MLD (R185, R187); on a drover thread R190. -/
def execMld (g : Guard) (t : Ty) (d : MDst) (a : Src) (h : Fin 16) (u : Bool) (disp : BitVec 31) : State → Out :=
  syllable (.mld g t d a h u disp) fun s =>
    match d, s.issue.agent with
    | .ring q, _ => s.loadTo q h (s.memOff a disp) t.width 8 (.load t.width (!u && t.isInt))
    | .xreg n, .drover k =>
      s.result (.x n (loadExt t u (s.droverRead k (s.droverAddr a disp) t.width))) 0 .scalar 200
    | .xreg _, .ctx _ _ => s

/-- MLDV (R185, R187). -/
def execMldv (g : Guard) (d : Fin 16) (a : Src) (h : Fin 16) (disp : BitVec 31) : State → Out :=
  syllable (.mldv g d a h disp) fun s => s.loadTo d h (s.memOff a disp) 256 256 .loadV

/-- The parts of an MGATH (R188): for each lane the place of its element in the data, and the parts themselves. -/
def State.gatherParts (s : State) (a b : Src) (e : Nat) : List Nat → Nat → List (Option Nat) × List Piece
  | [], _ => ([], [])
  | j :: js, at_ =>
    match s.gatherLane a b j with
    | none => let (l, p) := s.gatherParts a b e js at_; (none :: l, p)
    | some (k, off) =>
      let h := s.bank.handle k
      if h.valid then
        let (l, p) := s.gatherParts a b e js (at_ + e)
        (some at_ :: l, ⟨h.pa off, at_, e, false, h.nalloc, h.dom, h.first⟩ :: p)
      else
        let (l, p) := s.gatherParts a b e js at_
        (none :: l, p)

/-- Lanes whose handle is clear (R188). -/
def State.gatherMisses (s : State) (a b : Src) : List (Nat × Fin 16) :=
  (List.range 64).filterMap fun j =>
    match s.gatherLane a b j with
    | some (k, _) => if (s.bank.handle k).valid then none else some (j, k)
    | none => none

/-- MGATH (R188). -/
def execMgath (g : Guard) (t : Ty) (d : Fin 16) (a : Src) (b : Src) (c : Fin 32) : State → Out :=
  syllable (.mgath g t d a b c) fun s =>
    let (lanes, pieces) := s.gatherParts a b t.width (List.range 64) 0
    let misses := s.gatherMisses a b
    let mask := misses.foldl (fun m p => m + 2 ^ p.1) 0
    let dest := s.ringDest d 256
    let e := match dest with | .ring _ _ e => e | _ => 0
    let base := s.access 0 0 0 (.gather t.width lanes) (List.replicate (64 * t.width) 0) dest
    let acc := { base with pieces := pieces, unb := false, admitted := true }
    let s := ((s.send acc).claim d e).result (.x c (BitVec.ofNat 64 mask)) 0 .scalar 1
    misses.foldl (fun s p => s.missOn p.2) s

/-- MST (R185); on a drover thread R190. -/
def execMst (g : Guard) (t : Ty) (d : Src) (a : Src) (h : Fin 16) (disp : BitVec 31) : State → Out :=
  syllable (.mst g t d a h disp) fun s =>
    match s.issue.agent with
    | .ctx _ _ => s.storeTo h (s.memOff a disp) (bytesOf t.width (s.X 0 d).toNat)
    | .drover n => s.droverWrite n (s.droverAddr a disp) (bytesOf t.width (s.X 0 d).toNat)

/-- MSTV (R185). -/
def execMstv (g : Guard) (d : Src) (a : Src) (h : Fin 16) (disp : BitVec 31) : State → Out :=
  syllable (.mstv g d a h disp) fun s => s.storeTo h (s.memOff a disp) (bytesOf 256 (s.V 0 d).toNat)

/-- AMO (R185). -/
def execAmo (g : Guard) (t : Ty) (d : Fin 16) (a : Src) (b : Src) (o : AmoOp) (ord : MemOrd) (sc : Scope)
    (h : Fin 16) : State → Out :=
  syllable (.amo g t d a b o ord sc h) fun s =>
    s.atomicTo d h (s.X 1 a).toNat t.width (.atomic t.width o (lowBytes t (s.X 2 b))) ord sc

/-- AMOCAS (R187). -/
def execAmocas (g : Guard) (t : Ty) (d : Fin 16) (a : Src) (b : Src) (c : Src) (ord : MemOrd) (sc : Scope)
    (h : Fin 16) : State → Out :=
  syllable (.amocas g t d a b c ord sc h) fun s =>
    s.atomicTo d h (s.X 1 a).toNat t.width
      (.cas t.width (lowBytes t (s.X 2 b)) (lowBytes t (s.X 3 c))) ord sc

/-! Scale queues and DISC (R191, R193). -/

/-- SQLD (R191). -/
def execSqld (g : Guard) (d : Fin 2) (a : Src) (n1 : BitVec 4) (h : Fin 16) : State → Out :=
  syllable (.sqld g d a n1 h) fun s =>
    let n := n1.toNat + 1
    let id := s.here.serial
    let acc := s.access h (s.X 1 a).toNat (32 * n) (.scales (d == 1) n) (List.replicate (32 * n) 0)
      (.scale (d == 1) n)
    ((s.send acc).modBank fun k =>
      k.setScale (d == 1) (k.scale (d == 1) ++ tab n fun j => .claimed id j)).missOn h

/-- SQPUSH (R191). -/
def execSqpush (g : Guard) (d : Fin 2) (a : Src) (n1 : BitVec 3) : State → Out :=
  syllable (.sqpush g d a n1) fun s =>
    s.modBank fun k =>
      k.setScale (d == 1) (k.scale (d == 1) ++
        tab (n1.toNat + 1) fun j => .landed (BitVec.ofNat 256 (elem 256 (s.V 1 a).toNat j)))

/-- DISC (R193): one part per 128-byte line; of length 0 it does nothing. -/
def execDisc (g : Guard) (a : Src) (b : Src) (h : Fin 16) : State → Out :=
  syllable (.disc g a b h) fun s =>
    let off := (s.X 1 a).toNat
    let acc := s.access h off 0 .discard [] .none
    let hd := s.bank.handle h
    if s.X 2 b = 0 then s
    else s.send { acc with
      pieces := tab ((s.X 2 b).toNat / 128) fun j => ⟨hd.pa off + 128 * j, 0, 128, false, hd.nalloc, hd.dom, hd.first⟩ }

end Sys2Proof.Machine
end

