-- ==== Sys2Proof/Machine/Control.lean ====
section
/-!
DEFINITION. The K class (06_scalar_and_control.md, R144 to R156; R123, R125, R324): control transfers, loops,
tasks, tokens, traps, system calls and CSRs.
-/
namespace Sys2Proof.Machine

/-- A control transfer of the bundle (R99). -/
def State.transfer (s : State) (t : Nat) : State := s.modTail fun tl => { tl with target := some t }

/-- h + SExt(offset, 32) (R99); an index below 0 is out of range like one above 16,383. -/
def State.relative (s : State) (off : BitVec 32) : Nat := wrap 64 (s.issue.hdr + off.toInt)

/-- The index after the bundle in issue. -/
def State.nextIndex (s : State) : Word := BitVec.ofNat 64 (s.issue.hdr + 1 + s.issue.n)

/-- The target of a register branch (R146). -/
def branchTarget (link : Bool) (v : Word) : Nat := if link then fld v.toNat 0 14 else v.toNat

/-- BR (R145). -/
def execBr (g : Guard) (off : BitVec 32) : State → Out :=
  syllable (.br g off) fun s => s.transfer (s.relative off)

/-- BRP (R145). -/
def execBrp (g : Guard) (off : BitVec 32) (neg : Bool) (p : Fin 16) : State → Out :=
  syllable (.brp g off neg p) fun s => if s.P p != neg then s.transfer (s.relative off) else s

/-- BRX (R146). -/
def execBrx (g : Guard) (a : Src) (link : Bool) : State → Out :=
  syllable (.brx g a link) fun s => s.transfer (branchTarget link (s.X 1 a))

/-- CALL (R147). -/
def execCall (g : Guard) (off : BitVec 32) : State → Out :=
  syllable (.call g off) fun s => (s.transfer (s.relative off)).result (.x 31 s.nextIndex) 0 .scalar 1

/-- CALLX (R147). -/
def execCallx (g : Guard) (d : Fin 32) (a : Src) (link : Bool) : State → Out :=
  syllable (.callx g d a link) fun s =>
    (s.transfer (branchTarget link (s.X 1 a))).result (.x d s.nextIndex) 0 .scalar 1

/-- RET (R146). -/
def execRet (g : Guard) (a : Src) : State → Out :=
  syllable (.ret g a) fun s => s.transfer (s.X 1 a).toNat

/-- The index after the bundle whose header stands at `stop`; `stop` itself when it is no header, so that the fetch
there raises the bundle-target trap (R148). -/
def State.afterBundle (s : State) (stop : Nat) : Nat :=
  let m := match s.issue.agent with
    | .ctx t _ => (s.tile t).mem.store
    | .drover n => (s.drover n).store
  let h := storeAt m stop
  if stop ≤ 16383 ∧ fld h 56 8 = 0xB7 then stop + 1 + popCount 8 (fld h 48 8) else stop

/-- The effect of LOOP and LOOPX (R123, R148). -/
def State.openLoop (s : State) (stop n stages : Nat) : State :=
  if n = 0 then s.modTail fun tl => { tl with fall := s.afterBundle stop }
  else
    s.modBank fun b =>
      { b with
        loops := ⟨s.issue.hdr + 1 + s.issue.n, stop, n, 1, stages, false⟩ :: b.loops,
        s := if stages = 0 then b.s else 1 }

/-- LOOP (R148). -/
def execLoop (g : Guard) (off : BitVec 32) (stages : BitVec 4) (n : BitVec 12) : State → Out :=
  syllable (.loop g off stages n) fun s => s.openLoop (s.relative off) n.toNat stages.toNat

/-- LOOPX (R148). -/
def execLoopx (g : Guard) (a : Src) (dist : BitVec 14) (stages : BitVec 4) : State → Out :=
  syllable (.loopx g a dist stages) fun s => s.openLoop (s.issue.hdr + dist.toNat) (s.X 1 a).toNat stages.toNat

/-- CLOSE (R125). -/
def execClose (g : Guard) : State → Out :=
  syllable (.close g) fun s => s.modBank fun b => { b with loops := setAt b.loops 0 fun e => { e with closed := true } }

/-- YIELD (R149); no action on a drover thread (R157). -/
def execYield (g : Guard) : State → Out :=
  syllable (.yield g) fun s => s.modTail fun tl => { tl with yields := true }

/-- ENDT (R150). -/
def execEndt (g : Guard) : State → Out :=
  syllable (.endt g) fun s => s.modTail fun tl => { tl with ends := true }

/-- CONDW (R151): the write is sent to the rank 0 tile. -/
def execCondw (g : Guard) (a : Src) (word : BitVec 6) (o : CondwOp) : State → Out :=
  syllable (.condw g a word o) fun s =>
    let m : CondMsg := ⟨s.issue.mem.bnd.rank s.homeTile, s.issue.ctx.node.toNat, o, ⟨word.toNat, word.isLt⟩, (s.X 1 a).setWidth 32⟩
    s.modNet s.homeTile fun n => { n with condw := n.condw ++ [m] }

/-- TOKEN (R152): a deciding node outside the graph raises the token-target fault and the token is discarded. -/
def execToken (g : Guard) (a : Src) (b : Src) : State → Out :=
  syllable (.token g a b) fun s =>
    if s.here.pr.nodes.length ≤ (s.X 1 a).toNat then s.oweToken (s.X 1 a)
    else s.modNet s.homeTile fun n => { n with tokens := n.tokens ++ [((s.X 1 a).toNat, (s.X 2 b).toNat)] }

/-- TRAP (R153): taken at the end of the bundle, after its loop action. -/
def execTrap (g : Guard) (code : BitVec 16) : State → Out :=
  syllable (.trap g code) fun s => s.modTail fun tl => { tl with soft := some (s.issue.slot, code) }

/-- A request that stands until its reply (R154, R192, R273). -/
def State.request (s : State) (kind : CallKind) (args : List Word) (d : Fin 32) : State :=
  let c : Call :=
    ⟨s.serial, s.here.pad.getD 0, s.here.mem.bnd.rank s.homeTile, s.issuer, kind, args, d, none⟩
  { s.addWait (.reply s.serial) with calls := s.calls ++ [c], serial := s.serial + 1 }

/-- SYSC (R154): x1 to x6 are read at issue, and the context waits for the reply. -/
def execSysc (g : Guard) (num : BitVec 16) : State → Out :=
  syllable (.sysc g num) fun s => s.request (.sysc num) ([1, 2, 3, 4, 5, 6].map fun n => s.bank.xr n) 1

/-- ERET (R155, R324). -/
def execEret (g : Guard) : State → Out :=
  syllable (.eret g) fun s => s.modTail fun tl => { tl with eret := .begun }

/-- The common effect of the CSR instructions (R156): xd receives the old value, the register the new one. -/
def State.csrOp (s : State) (d : Fin 32) (k : BitVec 12) (new : Word) : State :=
  (s.result (.x d (s.csr k.toNat)) 0 .scalar 1).modCtx s.issue.agent fun c => c.setCsr k.toNat new

/-- CSRRD (R156). -/
def execCsrrd (g : Guard) (d : Fin 32) (csr : BitVec 12) : State → Out :=
  syllable (.csrrd g d csr) fun s => s.result (.x d (s.csr csr.toNat)) 0 .scalar 1

/-- CSRWR (R156). -/
def execCsrwr (g : Guard) (d : Fin 32) (a : Src) (csr : BitVec 12) : State → Out :=
  syllable (.csrwr g d a csr) fun s => s.csrOp d csr (s.X 1 a)

/-- CSRSET (R156). -/
def execCsrset (g : Guard) (d : Fin 32) (a : Src) (csr : BitVec 12) : State → Out :=
  syllable (.csrset g d a csr) fun s => s.csrOp d csr (s.csr csr.toNat ||| s.X 1 a)

/-- CSRCLR (R156). -/
def execCsrclr (g : Guard) (d : Fin 32) (a : Src) (csr : BitVec 12) : State → Out :=
  syllable (.csrclr g d a csr) fun s => s.csrOp d csr (s.csr csr.toNat &&& ~~~(s.X 1 a))

end Sys2Proof.Machine
end

