-- ==== Sys2Proof/Machine/Numbers.lean ====
section
/-!
DEFINITION. Numbers to the last bit (09_numbers.md): element formats, exact arithmetic on decoded values, the one
rounding of ToFmt, block scales, and the accumulation steps of the matrix engine.
-/
namespace Sys2Proof.Machine

/-- A decoded value: NaN (signaling or not), an infinity, or ± mant × 2^exp, exactly. -/
inductive Val where
  | nan (sig : Bool)
  | inf (neg : Bool)
  | fin (neg : Bool) (mant : Nat) (exp : Int)
deriving DecidableEq, Repr

def Val.zero : Val := .fin false 0 0

/-- The value of an integer. -/
def Val.ofInt (i : Int) : Val := .fin (i < 0) i.natAbs 0

def Val.isNan : Val → Bool
  | .nan _ => true | .inf _ => false | .fin _ _ _ => false

def Val.isSig : Val → Bool
  | .nan s => s | .inf _ => false | .fin _ _ _ => false

def Val.isInf : Val → Bool
  | .inf _ => true | .nan _ => false | .fin _ _ _ => false

def Val.isZero : Val → Bool
  | .fin _ m _ => m == 0 | .nan _ => false | .inf _ => false

def Val.sign : Val → Bool
  | .fin n _ _ => n | .inf n => n | .nan _ => false

/-- The signed mantissa of a finite value. -/
def Val.smant : Val → Int
  | .fin n m _ => if n then -(m : Int) else m
  | .nan _ => 0
  | .inf _ => 0

def Val.expo : Val → Int
  | .fin _ _ e => e | .nan _ => 0 | .inf _ => 0

def Val.neg : Val → Val
  | .nan s => .nan s | .inf n => .inf (!n) | .fin n m e => .fin (!n) m e

def Val.abs : Val → Val
  | .nan s => .nan s | .inf _ => .inf false | .fin _ m e => .fin false m e

/-- A value scaled by 2^k. -/
def Val.scale (k : Int) : Val → Val
  | .nan s => .nan s | .inf n => .inf n | .fin n m e => .fin n m (e + k)

/-- Floor(Log2(|v|)) of a nonzero finite value. -/
def Val.log2 : Val → Int
  | .fin _ m e => (Nat.log2 m : Int) + e | .nan _ => 0 | .inf _ => 0

/-- m × 2^e as a multiple of 2^q, for q at most e. -/
def alignTo (q : Int) (m e : Int) : Int := m * (2 ^ (e - q).toNat : Nat)

/-- The exact sum of finite values, as a signed mantissa and an exponent. -/
def exactSum (l : List Val) : Int × Int :=
  let q := l.foldl (fun a v => min a v.expo) 0
  (l.foldl (fun a v => a + alignTo q v.smant v.expo) 0, q)

/-- The exact order of two finite or infinite values. -/
def Val.lt : Val → Val → Bool
  | .inf n, .inf m => n && !m
  | .inf n, .fin _ _ _ => n
  | .fin _ _ _, .inf n => !n
  | .fin n m e, .fin n' m' e' =>
    let q := min e e'
    alignTo q (Val.fin n m e).smant e < alignTo q (Val.fin n' m' e').smant e'
  | _, _ => false

/-- Equality of numbers, with +0 = −0; false for NaN (R143). -/
def Val.eqv (a b : Val) : Bool := !a.isNan && !b.isNan && !a.lt b && !b.lt a

/-- Kinds of special codes (R209, R213). -/
inductive FKind where
  | ieee      -- infinities and NaNs at the top exponent (FP32, BF16, FP16, E5M2)
  | e4m3      -- NaN at 0x7F and 0xFF, no infinity
  | finite    -- every code a finite number
deriving DecidableEq, Repr

/-- A floating-point element format (R209). -/
structure FFmt where
  e : Nat
  m : Nat
  bias : Nat
  kind : FKind
  qnan : Nat
deriving DecidableEq, Repr

def fp32 : FFmt := ⟨8, 23, 127, .ieee, 0x7FC00000⟩
def fpBf16 : FFmt := ⟨8, 7, 127, .ieee, 0x7FC0⟩
def fp16 : FFmt := ⟨5, 10, 15, .ieee, 0x7E00⟩
def fpE4m3 : FFmt := ⟨4, 3, 7, .e4m3, 0x7F⟩
def fpE5m2 : FFmt := ⟨5, 2, 15, .ieee, 0x7E⟩
def fpE3m2 : FFmt := ⟨3, 2, 3, .finite, 0⟩
def fpE2m3 : FFmt := ⟨2, 3, 1, .finite, 0⟩
def fpE2m1 : FFmt := ⟨2, 1, 1, .finite, 0⟩

/-- Bits of a code. -/
def FFmt.bits (f : FFmt) : Nat := 1 + f.e + f.m

/-- The exponent of the smallest normal number. -/
def FFmt.emin (f : FFmt) : Int := 1 - (f.bias : Int)

/-- The code of the largest finite magnitude (R209). -/
def FFmt.maxCode (f : FFmt) : Nat :=
  match f.kind with
  | .ieee => (2 ^ f.e - 1) * 2 ^ f.m - 1
  | .e4m3 => 0x7E
  | .finite => 2 ^ (f.e + f.m) - 1

/-- The code of a magnitude with a sign. -/
def FFmt.signed (f : FFmt) (neg : Bool) (mag : Nat) : Nat := neg.toNat * 2 ^ (f.e + f.m) + mag

/-- The value of a code (R209). The NaN codes of E4M3 and E5M2 are all quiet. -/
def FFmt.decode (f : FFmt) (c : Nat) : Val :=
  let neg := bit c (f.e + f.m)
  let ex := fld c f.m f.e
  let fr := fld c 0 f.m
  if f.kind = .ieee ∧ ex = 2 ^ f.e - 1 then
    if fr = 0 then .inf neg else .nan (!bit fr (f.m - 1) && f.m != 2)
  else if f.kind = .e4m3 ∧ ex = 15 ∧ fr = 7 then .nan false
  else if ex = 0 then .fin neg fr (f.emin - f.m)
  else .fin neg (2 ^ f.m + fr) (ex - f.bias - f.m)

/-- Rounds mant × 2^exp (with more beyond when `sticky`) to a multiple of 2^q: the multiple, and whether it
differs (R139). -/
def roundQ (rm : Rm) (neg : Bool) (mant : Nat) (exp q : Int) (sticky : Bool) : Nat × Bool :=
  if q ≤ exp then
    let k := mant * 2 ^ (exp - q).toNat
    (if sticky && ((rm == .ru && !neg) || (rm == .rd && neg)) then k + 1 else k, sticky)
  else
    let sh := (q - exp).toNat
    let k := mant / 2 ^ sh
    let r := mant % 2 ^ sh
    let half := 2 ^ (sh - 1)
    let inexact := r != 0 || sticky
    let up :=
      match rm with
      | .rne => r > half || (r == half && (sticky || k % 2 == 1))
      | .rz => false
      | .ru => inexact && !neg
      | .rd => inexact && neg
    (if up then k + 1 else k, inexact)

/-- Rounds to an integer by a mode (R142). -/
def roundInt (rm : Rm) (v : Val) : Int × Bool :=
  match v with
  | .fin neg m e => let r := roundQ rm neg m e 0 false; (if neg then -(r.1 : Int) else r.1, r.2)
  | .nan _ => (0, false)
  | .inf _ => (0, false)

/-- The overflow result of a rounding mode (R141, R213). -/
def FFmt.overflow (f : FFmt) (rm : Rm) (sat neg : Bool) : Nat :=
  let big := f.signed neg f.maxCode
  if sat || f.kind != .ieee then big
  else
    let inf := f.signed neg ((2 ^ f.e - 1) * 2 ^ f.m)
    match rm with
    | .rne => inf
    | .rz => big
    | .ru => if neg then big else inf
    | .rd => if neg then inf else big

/-- The magnitude code of a multiple k of 2^q, where q is the format's quantum for it: k may have rounded up to
2^(m+1), whose place value carries into the exponent field. -/
def FFmt.place (f : FFmt) (k : Nat) (q : Int) : Nat :=
  if k < 2 ^ f.m then k else (q - (f.emin - f.m)).toNat * 2 ^ f.m + k

/-- ToFmt on a nonzero finite magnitude (R213): one rounding, tininess after rounding, overflow by target. -/
def FFmt.round (f : FFmt) (rm : Rm) (sat neg : Bool) (mant : Nat) (exp : Int) (sticky : Bool) : Nat × Flags :=
  if mant = 0 ∧ sticky = false then (f.signed neg 0, 0)
  else
    let lg := (Nat.log2 mant : Int) + exp
    let q := max lg f.emin - f.m
    let (k, inexact) := roundQ rm neg mant exp q sticky
    let mag := f.place k q
    let (kU, _) := roundQ rm neg mant exp (lg - f.m) sticky
    let tiny := lg < f.emin && kU < 2 ^ ((f.emin - lg).toNat + f.m)
    if f.maxCode < mag then (f.overflow rm sat neg, Flags.ovf ||| Flags.nx)
    else (f.signed neg mag, Flags.when inexact Flags.nx ||| Flags.when (inexact && tiny) Flags.uf)

/-- ToFmt(v, f, rm, sat) for the floating-point formats (R213). -/
def FFmt.ofVal (f : FFmt) (rm : Rm) (sat : Bool) (v : Val) : Nat × Flags :=
  match v with
  | .nan sig =>
    match f.kind with
    | .finite => (0, Flags.nv)
    | .ieee => (f.qnan, Flags.when sig Flags.nv)
    | .e4m3 => (f.qnan, Flags.when sig Flags.nv)
  | .inf neg =>
    match f.kind with
    | .ieee => if sat && f.m == 2 then (f.signed neg f.maxCode, Flags.ovf)
               else (f.signed neg ((2 ^ f.e - 1) * 2 ^ f.m), 0)
    | .e4m3 => (f.signed neg f.maxCode, Flags.ovf)
    | .finite => (f.signed neg f.maxCode, Flags.ovf)
  | .fin neg m e => f.round rm sat neg m e false

/-- The value of an n-bit taper code (R212). NaR acts as a quiet NaN. -/
def taperDecode (n c : Nat) : Val :=
  if c = 0 then .zero
  else if c = 2 ^ (n - 1) then .nan false
  else
    let neg := bit c (n - 1)
    let c := if neg then 2 ^ n - c else c
    let r := bit c (n - 2)
    let m := runLen n c r
    let k : Int := if r then m - 1 else -(m : Int)
    let rest := if m = n - 1 then 0 else n - 2 - m
    let x := if rest ≥ 1 then fld c (rest - 1) 1 else 0
    let fb := rest - 1
    .fin neg (2 ^ fb + fld c 0 fb) (2 * k + x - fb)
where
  /-- Consecutive bits equal to r, from bit n − 2 downward. -/
  runLen (n c : Nat) (r : Bool) : Nat :=
    ((List.range (n - 1)).takeWhile fun j => bit c (n - 2 - j) == r).length

/-- The magnitudes of the positive taper codes rise with the code; the largest code not above a magnitude. -/
def taperFloor (n : Nat) (v : Val) : Nat :=
  (List.range (2 ^ (n - 1))).foldl (fun best c => if c > 0 && !v.lt (taperDecode n c) then c else best) 0

/-- ToFmt for the taper formats (R213), decided on x itself. -/
def taperEncode (n : Nat) (rm : Rm) (v : Val) : Nat × Flags :=
  let big := 2 ^ (n - 1) - 1
  let sgn (neg : Bool) (c : Nat) : Nat := if neg then 2 ^ n - c else c
  match v with
  | .nan _ => (2 ^ (n - 1), 0)
  | .inf _ => (2 ^ (n - 1), Flags.nv)
  | .fin neg 0 _ => let _ := neg; (0, 0)
  | .fin neg (m + 1) e =>
    let a : Val := .fin false (m + 1) e
    if (taperDecode n big).lt a then (sgn neg big, Flags.ovf ||| Flags.nx)
    else if a.lt (taperDecode n 1) then (sgn neg 1, Flags.uf ||| Flags.nx)
    else
      let c := taperFloor n a
      if !(taperDecode n c).lt a then (sgn neg c, 0)
      else
        let s := exactSum [taperDecode n c, taperDecode n (c + 1)]
        let mid : Val := .fin false s.1.natAbs (s.2 - 1)
        let up :=
          match rm with
          | .rne => mid.lt a || (!a.lt mid && c % 2 == 1)
          | .rz => false
          | .ru => !neg
          | .rd => neg
        (sgn neg (if up then c + 1 else c), Flags.nx)

/-- ToFmt for an integer range of w bits (R142): saturates with NV, NX only without NV. -/
def intEncode (w : Nat) (u : Bool) (rm : Rm) (v : Val) : Int × Flags :=
  match v with
  | .nan _ => (0, Flags.nv)
  | .inf neg =>
    let big : Int := 2 ^ 80
    let x := if neg then -big else big
    (if u then satU w x else satS w x, Flags.nv)
  | .fin n m e =>
    let (i, inexact) := roundInt rm (.fin n m e)
    let s := if u then satU w i else satS w i
    if s != i then (s, Flags.nv) else (i, Flags.when inexact Flags.nx)

/-- The element value of a code of a matrix format (R207 to R212). -/
def mdecode (f : MFmt) (c : Nat) : Val :=
  match f with
  | .bf16 => fpBf16.decode c
  | .f16 => fp16.decode c
  | .e4m3 => fpE4m3.decode c
  | .e5m2 => fpE5m2.decode c
  | .mx8e4 => fpE4m3.decode c
  | .mx8e5 => fpE5m2.decode c
  | .f6 => fpE3m2.decode c
  | .f6m3 => fpE2m3.decode c
  | .f4 => fpE2m1.decode c
  | .mxi8 => (Val.ofInt (sext 8 c)).scale (-6)
  | .i8 => .ofInt (sext 8 c)
  | .u8 => .ofInt (c % 256 : Nat)
  | .i4 => .ofInt (sext 4 c)
  | .u4 => .ofInt (c % 16 : Nat)
  | .tap8 => taperDecode 8 c
  | .tap6 => taperDecode 6 c
  | .mxtap8 => taperDecode 8 c
  | .mxtap6 => taperDecode 6 c
  | .f32 => fp32.decode c
  | .i16 => .ofInt (sext 16 c)

/-- ToFmt to the element of a matrix format (R213). -/
def mencode (f : MFmt) (rm : Rm) (sat : Bool) (v : Val) : Nat × Flags :=
  let int (w : Nat) (u : Bool) : Nat × Flags := let r := intEncode w u rm v; (wrap w r.1, r.2)
  match f with
  | .bf16 => fpBf16.ofVal rm sat v
  | .f16 => fp16.ofVal rm sat v
  | .e4m3 => fpE4m3.ofVal rm sat v
  | .e5m2 => fpE5m2.ofVal rm sat v
  | .mx8e4 => fpE4m3.ofVal rm sat v
  | .mx8e5 => fpE5m2.ofVal rm sat v
  | .f6 => fpE3m2.ofVal rm sat v
  | .f6m3 => fpE2m3.ofVal rm sat v
  | .f4 => fpE2m1.ofVal rm sat v
  | .mxi8 => let r := intEncode 8 false rm (v.scale 6); (wrap 8 r.1, r.2)
  | .i8 => int 8 false
  | .u8 => int 8 true
  | .i4 => int 4 false
  | .u4 => int 4 true
  | .tap8 => taperEncode 8 rm v
  | .tap6 => taperEncode 6 rm v
  | .mxtap8 => taperEncode 8 rm v
  | .mxtap6 => taperEncode 6 rm v
  | .f32 => fp32.ofVal rm sat v
  | .i16 => int 16 false

/-- The floating-point format of a type (R94); integer types take FP32, and are never used so. -/
def tyFmt : Ty → FFmt
  | .f32 => fp32 | .bf16 => fpBf16 | .f16 => fp16
  | .i64 => fp32 | .i32 => fp32 | .i16 => fp32 | .i8 => fp32

/-- The value of a lane or register of a type, integers read signed or (`u`) unsigned. -/
def tyDecode (t : Ty) (u : Bool) (c : Nat) : Val :=
  if t.isInt then .ofInt (if u then (c % 2 ^ t.bits : Nat) else sext t.bits c) else (tyFmt t).decode (c % 2 ^ t.bits)

/-- ToFmt to a type, as a w-bit pattern (R142, R213). -/
def tyEncode (t : Ty) (u : Bool) (rm : Rm) (v : Val) : Nat × Flags :=
  if t.isInt then let r := intEncode t.bits u rm v; (wrap t.bits r.1, r.2) else (tyFmt t).ofVal rm false v

/-! ### IEEE arithmetic (R139 to R141) -/

/-- The exact sum of two finite values, with the sign of a zero that IEEE 754-2019 gives. -/
def addFin (rm : Rm) (a b : Val) : Val :=
  if a.isZero && b.isZero then
    if a.sign == b.sign then a else .fin (rm == .rd) 0 0
  else
    let s := exactSum [a, b]
    if s.1 = 0 then .fin (rm == .rd) 0 0 else .fin (s.1 < 0) s.1.natAbs s.2

/-- a + b before rounding, with the invalid flag. -/
def vAdd (rm : Rm) (a b : Val) : Val × Flags :=
  if a.isNan || b.isNan then (.nan false, Flags.when (a.isSig || b.isSig) Flags.nv)
  else
    match a, b with
    | .inf n, .inf m => if n = m then (.inf n, 0) else (.nan false, Flags.nv)
    | .inf n, .fin _ _ _ => (.inf n, 0)
    | .fin _ _ _, .inf n => (.inf n, 0)
    | a, b => (addFin rm a b, 0)

/-- The exact product of two numbers; NaN marks 0 × ∞. -/
def mulVal (a b : Val) : Val :=
  match a, b with
  | .fin n m e, .fin n' m' e' => .fin (n != n') (m * m') (e + e')
  | .nan _, _ => .nan false
  | _, .nan _ => .nan false
  | .inf n, .inf n' => .inf (n != n')
  | .inf n, .fin n' m _ => if m = 0 then .nan false else .inf (n != n')
  | .fin n m _, .inf n' => if m = 0 then .nan false else .inf (n != n')

/-- a × b before rounding, with the invalid flag. -/
def vMul (a b : Val) : Val × Flags :=
  if a.isNan || b.isNan then (.nan false, Flags.when (a.isSig || b.isSig) Flags.nv)
  else (mulVal a b, Flags.when (mulVal a b).isNan Flags.nv)

/-- a × b + c before its one rounding, with the invalid flag. -/
def vFma (rm : Rm) (a b c : Val) : Val × Flags :=
  let sig := a.isSig || b.isSig || c.isSig
  if a.isNan || b.isNan then (.nan false, Flags.when sig Flags.nv)
  else if (mulVal a b).isNan then
    (.nan false, if c.isNan && !c.isSig then Flags.when Config.fmaNanInvalid Flags.nv else Flags.nv)
  else vAdd rm (mulVal a b) c

/-- Rounds an exact result to a format, joining its flags (R140). -/
def FFmt.finish (f : FFmt) (rm : Rm) (r : Val × Flags) : Nat × Flags :=
  let o := f.ofVal rm false r.1
  (o.1, o.2 ||| r.2)

/-- The integer square root of `n`, from bit `b` down. -/
def isqrtFrom (n : Nat) : Nat → Nat → Nat
  | 0, r => r
  | b + 1, r => if (r + 2 ^ b) * (r + 2 ^ b) ≤ n then isqrtFrom n b (r + 2 ^ b) else isqrtFrom n b r

/-- Floor of the square root. -/
def isqrt (n : Nat) : Nat := isqrtFrom n (Nat.log2 n / 2 + 1) 0

/-- a / b to a format (R140). -/
def FFmt.div (f : FFmt) (rm : Rm) (a b : Val) : Nat × Flags :=
  if a.isNan || b.isNan then (f.qnan, Flags.when (a.isSig || b.isSig) Flags.nv)
  else
    let neg := a.sign != b.sign
    match a, b with
    | .inf _, .inf _ => (f.qnan, Flags.nv)
    | .inf _, .fin _ _ _ => f.ofVal rm false (.inf neg)
    | .fin _ _ _, .inf _ => (f.signed neg 0, 0)
    | .fin _ m e, .fin _ m' e' =>
      if m' = 0 then if m = 0 then (f.qnan, Flags.nv) else (f.signed neg ((2 ^ f.e - 1) * 2 ^ f.m), Flags.dz)
      else
        let s := Nat.log2 m' + 70
        let n := m * 2 ^ s
        f.round rm false neg (n / m') (e - e' - s) (n % m' != 0)
    | _, _ => (f.qnan, 0)

/-- √a to a format; √−0 is −0 (R140). -/
def FFmt.sqrt (f : FFmt) (rm : Rm) (a : Val) : Nat × Flags :=
  match a with
  | .nan s => (f.qnan, Flags.when s Flags.nv)
  | .inf neg => if neg then (f.qnan, Flags.nv) else f.ofVal rm false (.inf false)
  | .fin neg m e =>
    if m = 0 then (f.signed neg 0, 0)
    else if neg then (f.qnan, Flags.nv)
    else
      let odd := (e % 2).toNat
      let n := m * 2 ^ (odd + 140)
      let r := isqrt n
      f.round rm false false r ((e - odd) / 2 - 70) (r * r != n)

/-- The order of R233: −0 below +0, a NaN gives way, two NaNs are canonical; bits returned unchanged. -/
def pickFloat (f : FFmt) (max : Bool) (a b : Nat) : Nat × Flags :=
  let x := f.decode a
  let y := f.decode b
  let fl := Flags.when (x.isSig || y.isSig) Flags.nv
  if x.isNan && y.isNan then (f.qnan, fl)
  else if x.isNan then (b, fl)
  else if y.isNan then (a, fl)
  else
    let less := x.lt y || (x.isZero && y.isZero && x.sign && !y.sign)
    (if less == max then b else a, fl)

/-! ### Block scales (R211, R214) -/

/-- emax of a scaled element format (R214). -/
def emaxOf : MFmt → Int
  | .mx8e4 => 8 | .mx8e5 => 15 | .f6 => 4 | .f6m3 => 2 | .f4 => 2 | .mxi8 => 0 | .mxtap8 => 12 | .mxtap6 => 8
  | .bf16 => 0 | .f16 => 0 | .e4m3 => 0 | .e5m2 => 0 | .i8 => 0 | .u8 => 0 | .i4 => 0 | .u4 => 0
  | .tap8 => 0 | .tap6 => 0 | .f32 => 0 | .i16 => 0

/-- The largest finite magnitude of a scaled element format, which stands for an infinity (R214). -/
def maxElem (f : MFmt) (neg : Bool) : Nat :=
  match f with
  | .mxi8 => if neg then 0x81 else 0x7F
  | .mxtap8 => if neg then 0x81 else 0x7F
  | .mxtap6 => if neg then 0x21 else 0x1F
  | .mx8e4 => fpE4m3.signed neg fpE4m3.maxCode
  | .mx8e5 => fpE5m2.signed neg fpE5m2.maxCode
  | .f6 => fpE3m2.signed neg fpE3m2.maxCode
  | .f6m3 => fpE2m3.signed neg fpE2m3.maxCode
  | .f4 => fpE2m1.signed neg fpE2m1.maxCode
  | f => (mencode f .rne true (.inf neg)).1

/-- One element of a quantised block under scale code c (R214). -/
def quantElem (f : MFmt) (rm : Rm) (c : Nat) (v : Val) : Nat × Flags :=
  match v with
  | .inf neg => (maxElem f neg, Flags.ovf)
  | .nan s => mencode f rm true (.nan s)
  | .fin n m e => mencode f rm true ((Val.fin n m e).scale (127 - (c : Int)))

/-- The quantisation of a block: scale code, element codes, flags (R214). -/
def quantBlock (f : MFmt) (rm : Rm) (xs : List Val) : Nat × List Nat × Flags :=
  let big := xs.foldl (fun (a : Val) x => if x.isNan || x.isInf then a else if a.lt x.abs then x.abs else a) .zero
  if xs.any Val.isNan then (0xFF, xs.map (fun _ => 0), Flags.when (xs.any Val.isSig) Flags.nv)
  else
    let c := if big.isZero then 0 else (127 + min 127 (max (-127) (big.log2 - emaxOf f))).toNat
    let es := xs.map (quantElem f rm c)
    (c, es.map (·.1), Flags.join (es.map (·.2)))

/-! ### The alignment window and the matrix steps (R215 to R220, R263) -/

/-- The window of a code (R216): none for exact. -/
def windowOf : Nat → Option Nat
  | 1 => some 8 | 2 => some 16 | 3 => some 24 | 4 => some 32 | 5 => some 48
  | _ => none

/-- TruncZ(v, k) of R6 on a finite value, and whether bits were lost. -/
def truncZ (k : Int) (v : Val) : Val × Bool :=
  match v with
  | .fin n m e =>
    if k ≤ e then (v, false)
    else let sh := (k - e).toNat; (.fin n (m / 2 ^ sh) k, m % 2 ^ sh != 0)
  | v => (v, false)

/-- The exact sum of a group's finite products, scaled (R217). -/
def groupSum (k : Int) (ps : List Val) : Val :=
  let s := exactSum ps
  .fin (s.1 < 0) s.1.natAbs (s.2 + k)

/-- acc + G with its one FP32 rounding (R217): an exact zero sum is +0. -/
def accAdd (acc : Nat) (g : Val) : Nat × Flags :=
  let r := vAdd .rne (fp32.decode acc) g
  fp32.finish .rne r

/-- A group that answers QNaN or an infinity leaves the lost-significance bit as it was (R218; log 106). -/
def keepLost (r : Nat × Flags) (lsf lost : Bool) : Nat × Bool × Flags :=
  (r.1, if r.1 = fp32.qnan || (fp32.decode r.1).isInf then lsf else lost, r.2)

/-- The tail of GroupAdd and AbsDiffAdd over the terms of a group (R217): window, lost-significance bit, sum,
one rounding. Answers the accumulator, the bit and the flags. -/
def groupFold (acc : Nat) (ps : List Val) (k : Int) (w : Option Nat) (lsf : Bool) : Nat × Bool × Flags :=
  if ps.any Val.isNan || (ps.contains (.inf false) && ps.contains (.inf true)) then (fp32.qnan, lsf, Flags.nv)
  else
    match ps.find? Val.isInf with
    | some g => let r := accAdd acc g; (r.1, lsf, r.2)
    | none =>
      let nz := ps.filter (!·.isZero)
      match w, nz with
      | some w, p :: rest =>
        let e := rest.foldl (fun a v => max a v.log2) p.log2
        let qs := ps.map (truncZ (e + 1 - w))
        let lost := lsf || qs.any (·.2)
        let g := groupSum k (qs.map (·.1))
        keepLost (if g.isZero then (acc, 0) else accAdd acc g) lsf lost
      | _, _ =>
        let g := groupSum k ps
        if g.isZero then (acc, lsf, 0) else let r := accAdd acc g; (r.1, lsf, r.2)

/-- A NaN among scales or operands: QNaN, with NV only for a signaling operand (R217). -/
def groupNan (a b : List Val) (sa sb : Option Int) : Bool :=
  sa.isNone || sb.isNone || a.any Val.isNan || b.any Val.isNan

/-- GroupAdd (R217). A scale of none is the NaN scale. -/
def groupAdd (acc : Nat) (a b : List Val) (sa sb : Option Int) (w : Option Nat) (lsf : Bool) :
    Nat × Bool × Flags :=
  if groupNan a b sa sb then (fp32.qnan, lsf, Flags.when ((a ++ b).any Val.isSig) Flags.nv)
  else groupFold acc (List.zipWith mulVal a b) (sa.getD 0 + sb.getD 0) w lsf

/-- |a × 2^sa − b × 2^sb|; ∞ − ∞ is NaN (R263). -/
def absDiff (sa sb : Int) (a b : Val) : Val := ((vAdd .rne (a.scale sa) (b.scale sb).neg).1).abs

/-- AbsDiffAdd (R263). -/
def absDiffAdd (acc : Nat) (a b : List Val) (sa sb : Option Int) (w : Option Nat) (lsf : Bool) :
    Nat × Bool × Flags :=
  if groupNan a b sa sb then (fp32.qnan, lsf, Flags.when ((a ++ b).any Val.isSig) Flags.nv)
  else groupFold acc (List.zipWith (absDiff (sa.getD 0) (sb.getD 0)) a b) 0 w lsf

/-- The greatest of a list of numbers and the least index that attains it. -/
def maxIdx : List Val → Nat → Val → Nat → Val × Nat
  | [], _, best, at_ => (best, at_)
  | v :: vs, k, best, at_ => if best.lt v then maxIdx vs (k + 1) v k else maxIdx vs (k + 1) best at_

/-- CompareSelect on the float path (R263): accumulator, index, flags. The maximum is a real number, so that a zero
has no sign (log 24, DEDUCED). -/
def compareSelect (acc idx : Nat) (a b : List Val) (sa sb : Option Int) (k0 : Nat) : Nat × Nat × Flags :=
  let ps := List.zipWith mulVal a b
  if groupNan a b sa sb then (fp32.qnan, k0 % 2 ^ 32, Flags.when ((a ++ b).any Val.isSig) Flags.nv)
  else if ps.any Val.isNan then (fp32.qnan, k0 % 2 ^ 32, Flags.nv)
  else
    match ps with
    | [] => (acc, idx, 0)
    | p :: rest =>
      let (v, m) := maxIdx rest 1 p 0
      let (vr, fl) := fp32.ofVal .rne false (if v.isZero then .zero else v.scale (sa.getD 0 + sb.getD 0))
      let cur := fp32.decode acc
      if !cur.isNan && cur.lt (fp32.decode vr) then (vr, (k0 + m) % 2 ^ 32, fl) else (acc, idx, fl)

/-- The integer steps: SatS of the accumulator plus a sum of terms, with the sat flag (R220, R263). -/
def intAcc (acc : Nat) (terms : List Int) : Nat × Flags :=
  let s := sext 32 acc + terms.foldl (· + ·) 0
  (wrap 32 (satS 32 s), Flags.when (satS 32 s != s) Flags.sat)

/-- CompareSelect on the integer path (R263). -/
def intSelect (acc idx : Nat) (ps : List Int) (k0 : Nat) : Nat × Nat :=
  match ps with
  | [] => (acc, idx)
  | p :: rest =>
    let (v, m) := maxIdx (rest.map Val.ofInt) 1 (.ofInt p) 0
    if sext 32 acc < v.smant then (wrap 32 v.smant, (k0 + m) % 2 ^ 32) else (acc, idx)

/-! ### Approximate functions (R243, R244) -/

/-- A nonzero magnitude in [mant × 2^exp, (mant + 1) × 2^exp), strictly above the first when sticky. -/
structure Approx where
  neg : Bool
  mant : Nat
  exp : Int
  sticky : Bool
deriving DecidableEq, Repr

/-- ⌊ln 2 × 2^256⌋. -/
def ln2Q256 : Nat := 80260960185991308862233904206310070533990667611589946606122867505419956976171

/-- Σ y^k / k! from term k on, in units of 2^−256, each term cut toward zero. -/
def expSeries (y : Nat) : Nat → Nat → Nat → Nat
  | 0, _, _ => 0
  | n + 1, k, term => term + expSeries y n (k + 1) (term * y / 2 ^ 256 / (k + 1))

/-- 2^x for a finite x (R243): exact for an integer x, otherwise a lower bound within 2^−180 of it. -/
def exp2Approx (x : Val) : Approx :=
  if x.log2 ≥ 12 ∧ x.isZero = false then
    ⟨false, 1, if x.sign then -4096 else 4096, true⟩
  else
    let (n, fbits) : Int × Nat :=
      if 0 ≤ x.expo then (alignTo 0 x.smant x.expo, 0)
      else
        let d : Int := (2 ^ (-x.expo).toNat : Nat)
        (x.smant / d, (x.smant % d).toNat)
    if fbits = 0 then ⟨false, 1, n, false⟩
    else
      let f := fbits * 2 ^ 256 / 2 ^ (-x.expo).toNat
      let y := f * ln2Q256 / 2 ^ 256
      ⟨false, expSeries y 60 0 (2 ^ 256) / 2 ^ 70, n - 186, true⟩

/-- The bits of log2 m for m in [1, 2), m in units of 2^−320, by repeated squaring. -/
def log2Bits : Nat → Nat → Nat → Nat
  | 0, _, acc => acc
  | n + 1, y, acc =>
    let y2 := y * y / 2 ^ 320
    if y2 ≥ 2 ^ 321 then log2Bits n (y2 / 2) (2 * acc + 1) else log2Bits n y2 (2 * acc)

/-- log2 of a positive finite x (R243): exact for a power of two; none for x = 1, whose logarithm is 0. -/
def log2Approx (x : Val) : Option Approx :=
  match x with
  | .fin _ m _ =>
    let e := x.log2
    let frac := m * 2 ^ 320 / 2 ^ Nat.log2 m
    if m = 2 ^ Nat.log2 m then
      if e = 0 then none else some ⟨e < 0, e.natAbs, 0, false⟩
    else
      let l := log2Bits 140 frac 0
      if 0 ≤ e then some ⟨false, e.toNat * 2 ^ 140 + l, -140, true⟩
      else some ⟨true, e.natAbs * 2 ^ 140 - l - 1, -140, true⟩
  | _ => none

/-- 1 / x for a nonzero finite x. -/
def rcpApprox (x : Val) : Approx :=
  match x with
  | .fin n m e => let s := Nat.log2 m + 70; ⟨n, 2 ^ s / m, -e - s, 2 ^ s % m != 0⟩
  | _ => ⟨false, 0, 0, false⟩

/-- 1 / √x for a positive finite x. -/
def rsqApprox (x : Val) : Approx :=
  match x with
  | .fin _ m e =>
    let odd := (e % 2).toNat
    let m := m * 2 ^ odd
    let s := Nat.log2 m + 80
    let r := isqrt (2 ^ (2 * s) / m)
    ⟨false, r, -((e - odd) / 2) - s, m * (r * r) != 2 ^ (2 * s)⟩
  | _ => ⟨false, 0, 0, false⟩

/-- The fast result (R243): the significand cut to q bits toward zero, then cut into the format. -/
def FFmt.fast (f : FFmt) (a : Approx) : Nat × Flags :=
  let p := f.m + 1
  let q := min 12 p
  let len := Nat.log2 a.mant + 1
  let cut := len - q
  let lost := a.sticky || a.mant % 2 ^ cut != 0
  let (m, e) : Nat × Int := (a.mant / 2 ^ cut, a.exp + cut)
  let r := f.round .rz false a.neg m e false
  let lg := (Nat.log2 m : Int) + e
  if lg > f.bias then (f.signed a.neg ((2 ^ f.e - 1) * 2 ^ f.m), Flags.ovf ||| Flags.nx)
  else
    let inexact := lost || (r.2 &&& Flags.nx != 0)
    (r.1, Flags.when inexact Flags.nx ||| Flags.when (inexact && lg < f.emin) Flags.uf)

/-- A result in fast or full mode (R243). -/
def FFmt.approx (f : FFmt) (full : Bool) (rm : Rm) (a : Approx) : Nat × Flags :=
  if full then f.round rm false a.neg a.mant a.exp a.sticky else f.fast a

/-- The four functions of R243 and R244. -/
inductive AFun where
  | rcp | rsq | exp2 | log2
deriving DecidableEq, Repr

/-- VRCP, VRSQ, VEXP2 and VLOG2 of one value, special operands included (R244). -/
def FFmt.afun (f : FFmt) (fn : AFun) (full : Bool) (rm : Rm) (x : Val) : Nat × Flags :=
  let inf (neg : Bool) : Nat := f.signed neg ((2 ^ f.e - 1) * 2 ^ f.m)
  match x with
  | .nan s => (f.qnan, Flags.when s Flags.nv)
  | .inf neg =>
    match fn with
    | .rcp => (f.signed neg 0, 0)
    | .rsq => if neg then (f.qnan, Flags.nv) else (f.signed false 0, 0)
    | .exp2 => if neg then (f.signed false 0, 0) else (inf false, 0)
    | .log2 => if neg then (f.qnan, Flags.nv) else (inf false, 0)
  | .fin neg m e =>
    if m = 0 then
      match fn with
      | .rcp => (inf neg, Flags.dz)
      | .rsq => (inf neg, Flags.dz)
      | .exp2 => f.ofVal .rne false (.fin false 1 0)
      | .log2 => (inf true, Flags.dz)
    else
      match fn with
      | .rcp => f.approx full rm (rcpApprox (.fin neg m e))
      | .exp2 => f.approx full rm (exp2Approx (.fin neg m e))
      | .rsq => if neg then (f.qnan, Flags.nv) else f.approx full rm (rsqApprox (.fin neg m e))
      | .log2 =>
        if neg then (f.qnan, Flags.nv)
        else
          match log2Approx (.fin neg m e) with
          | some a => f.approx full rm a
          | none => (f.signed false 0, 0)

/-! ### Reduction windows (R221, R222) -/

/-- The accumulator units of an incoming value: rounded to a multiple of 2^(B − 64), with the overflow mark; none
for a NaN or an infinity (R221 steps 1 to 3). -/
def redConvert (b : Int) (v : Val) : Option (Int × Bool) :=
  match v with
  | .fin neg m e =>
    let k := (roundQ .rne neg m e (b - 64) false).1
    let (k, o) := if k ≥ 2 ^ 79 then (2 ^ 79 - 1, true) else (k, false)
    some (if neg then -(k : Int) else k, o)
  | _ => none

/-- The element that a sum closes to (R222). -/
def redClose (f : FFmt) (b : Int) (acc : Int) (poison : Bool) : Nat :=
  if poison then f.qnan else (f.ofVal .rne false (.fin (acc < 0) acc.natAbs (b - 64))).1

end Sys2Proof.Machine
end

