-- ==== Sys2Proof/Machine/Engine.lean ====
section
/-!
DEFINITION. The E class (R105): copies and sequencers (R194 to R206), ordering (R286 to R291), collectives (R292
to R304), flocks, page passes and merge streams (R272 to R280), reservations (R192), and the link (R310 to R313).
An entry of a queue is performed later by the step that its rule names.
-/
namespace Sys2Proof.Machine

/-! Queue entries. -/

/-- The serial number that the next access or entry of the tile takes. -/
def State.nextSerial (s : State) : Nat := s.here.serial

/-- A copy queue gains an entry (R169, R197). -/
def State.pushCopy (s : State) (q : Fin 4) (w : CopyWork) : State :=
  s.modTile s.homeTile fun T =>
    { T with
      queues := T.queues.set q (T.queues[q] ++ [CopyEntry.new T.serial s.issuer w T.sceneCycle]),
      serial := T.serial + 1 }

/-- The ring entries that the syllable now performing has popped (R97). -/
def State.poppedEntries (s : State) : List (Fin 16 × BitVec 32 × Nat) :=
  (s.issue.pops.filter fun p => p.slot = s.issue.slot).map fun p => (p.q, p.ring.rd, p.k)

/-- The matrix queue gains an entry (R251), which holds the ring entries its syllable popped until it completes (R255);
a CNTADD is no M instruction and holds none. -/
def State.pushM (s : State) (w : MWork) : State :=
  let pops := match w with | .add _ _ => [] | _ => s.poppedEntries
  s.modTile s.homeTile fun T =>
    { T with mq := T.mq ++ [⟨T.serial, s.issuer, w, none, pops, none⟩], serial := T.serial + 1 }

/-- The collective queue gains an entry (R292). -/
def State.pushE5 (s : State) (w : E5Work) : State :=
  s.modTile s.homeTile fun T =>
    { T with e5 := T.e5 ++ [⟨T.serial, s.issuer, s.issue.hdr, w, false, T.serial, false⟩], serial := T.serial + 1 }

/-- An e5 entry whose context waits until it completes (R292). -/
def State.collective (s : State) (w : E5Work) : State := (s.pushE5 w).addWait (.e5 s.nextSerial)

/-- A record that passed its checks enters a copy queue (R196, R197). -/
def State.pushRecord (s : State) (q : Fin 4) (p : Parsed CopyRec) : State :=
  match p with
  | .ok r => s.pushCopy q (.copy r)
  | .illegal => s
  | .route => s

/-! Copies and sequencers. -/

/-- SEQ (R200): the record is loaded or replaced. -/
def execSeq (g : Guard) (d : Fin 8) (a : Src) (q : Fin 4) : State → Out :=
  syllable (.seq g d a q) fun s =>
    match s.seqRec d a with
    | .ok r => s.modTile s.homeTile fun T =>
        { T with seqs := T.seqs.set q { T.seqs[q] with record := some r } }
    | .illegal => s
    | .route => s

/-- SEQGO (R200). -/
def execSeqgo (g : Guard) (a : Src) (q : Fin 4) : State → Out :=
  syllable (.seqgo g a q) fun s =>
    let r : SeqRun := ⟨[0, 0, 0, 0, 0, 0], (s.X 1 a).toInt, s.issuer, 0⟩
    s.modTile s.homeTile fun T =>
      { T with seqs := T.seqs.set q { T.seqs[q] with run := some r, bits := [] } }

/-- CPY (R197). -/
def execCpy (g : Guard) (d : Fin 8) (a : Src) (q : Fin 4) : State → Out :=
  syllable (.cpy g d a q) fun s => s.pushRecord q (s.copyRec d a cpyDir)

/-- CPYR (R197). -/
def execCpyr (g : Guard) (d : Fin 8) (a : Src) (q : Fin 4) : State → Out :=
  syllable (.cpyr g d a q) fun s => s.pushRecord q (s.copyRec d a cpyrDir)

/-- MCAST (R197). -/
def execMcast (g : Guard) (d : Fin 8) (a : Src) (q : Fin 4) : State → Out :=
  syllable (.mcast g d a q) fun s => s.pushRecord q (s.copyRec d a mcastDir)

/-- CONDV (R201). -/
def execCondv (g : Guard) (a : Fin 16) (n : BitVec 2) : State → Out :=
  syllable (.condv g a n) fun s =>
    s.modTile s.homeTile fun T =>
      let q := stream4 n
      { T with seqs := T.seqs.set q { T.seqs[q] with bits := (T.seqs[q]).bits ++ [s.P a] } }

/-! Counters. -/

/-- CNTADD (R203): code 7 adds at issue. -/
def execCntadd (g : Guard) (a : Src) (q : BitVec 3) (k : BitVec 9) : State → Out :=
  syllable (.cntadd g a q k) fun s =>
    let v := s.X 1 a
    if h : q.toNat < 4 then s.pushCopy ⟨q.toNat, h⟩ (.add k.toNat v)
    else if q.toNat = 4 then s.pushM (.add k.toNat v)
    else if q.toNat = 5 then s.pushE5 (.add k.toNat v)
    else s.modMem s.homeTile fun m => m.addCounter k.toNat v

/-- CNTWAIT (R204): the wait stands before the issue; issuing changes nothing more. -/
def execCntwait (g : Guard) (a : Src) (k : BitVec 9) : State → Out :=
  syllable (.cntwait g a k) fun s => s

/-- CNTRD (R205): the local counter, or a read performed at the tile of a rank. -/
def execCntrd (g : Guard) (d : Fin 32) (a : Src) (remote : Bool) (k : BitVec 9) : State → Out :=
  syllable (.cntrd g d a remote k) fun s =>
    if remote then
      let t := s.issue.mem.bnd.ofRank (s.X 1 a).toNat
      let id := s.nextSerial
      let acc : Access :=
        { id, ctx := s.issuer, kind := .counterRead t k.toNat d, owner := s.here.mem.bnd.owner, hdl := 0, off := 0,
          unb := false, admitted := true, ord := .rlx, sc := .tile, pieces := [⟨0, 0, 8, false, false, 0, false⟩],
          data := List.replicate 8 0, dest := .reg d, landed := false, err := false }
      let s := s.modTile s.homeTile fun T => { T with accs := T.accs ++ [acc], serial := T.serial + 1 }
      s.modCtx s.issue.agent fun c => { c with flight := c.flight ++ [⟨.x d 0, 0, .scalar, 0, false, some id⟩] }
    else s.result (.x d (s.issue.mem.counter k.toNat)) 0 .scalar 1

/-- CPYWAIT (R206): the wait stands before the issue. -/
def execCpywait (g : Guard) (mask : BitVec 4) : State → Out :=
  syllable (.cpywait g mask) fun s => s

/-! Ordering. -/

/-- QFENCE (R291). -/
def execQfence (g : Guard) (mask : BitVec 6) : State → Out :=
  syllable (.qfence g mask) fun s =>
    s.modTile s.homeTile fun T => { T with fences := T.fences ++ [⟨mask.toNat, T.serial⟩] }

/-- DRAIN (R286): accesses of its own bundle count as earlier. -/
def execDrain (g : Guard) : State → Out :=
  syllable (.drain g) fun s => s.addWait (.accesses s.nextSerial)

/-- FENCE (R287). -/
def execFence (g : Guard) (sc : Scope) : State → Out :=
  syllable (.fence g sc) fun s =>
    let s := s.addWait (.accesses s.nextSerial)
    if sc = .system then s.addWait (.hostOrder s.nextSerial) else s

/-! Collectives (R292 to R304). -/

/-- BAR (R295). -/
def execBar (g : Guard) (id : BitVec 2) (sc : Scope) (smask : BitVec 16) : State → Out :=
  syllable (.bar g id sc smask) fun s => s.collective (.bar (stream4 id) sc smask.toNat)

/-- SCENE (R298). -/
def execScene (g : Guard) : State → Out :=
  syllable (.scene g) fun s => s.collective .scene

/-- A group number (R300). -/
def group8 (g : BitVec 3) : Fin 8 := ⟨g.toNat, g.isLt⟩

/-- NETRED (R300): V(a) is read at issue. -/
def execNetred (g : Guard) (t : Ty) (d : Fin 32) (a : Src) (b : Src) (grp : BitVec 3) (o : ScanOp) (u : Bool)
    (sat : Bool) : State → Out :=
  syllable (.netred g t d a b grp o u sat) fun s =>
    s.collective (.netred (group8 grp) t o u sat d (s.V 1 a) (s.X 2 b).toNat)

/-- NETBC (R301). -/
def execNetbc (g : Guard) (t : Ty) (d : Fin 32) (a : Src) (b : Src) (c : Src) (grp : BitVec 3) : State → Out :=
  syllable (.netbc g t d a b c grp) fun s =>
    s.collective (.netbc (group8 grp) t d (s.V 1 a) (s.X 2 b).toNat (s.X 3 c).toNat)

/-- REDOPEN (R302). -/
def execRedopen (g : Guard) (d : Fin 32) (a : Src) (bf : Bool) (bexp : BitVec 9) (len1 : BitVec 14) : State → Out :=
  syllable (.redopen g d a bf bexp len1) fun s =>
    s.collective (.redopen d (s.X 1 a).toNat (128 * (len1.toNat + 1)) bf ((bexp.toNat : Int) - 150))

/-- REDCLOSE (R304). -/
def execRedclose (g : Guard) (d : Fin 32) (a : Src) : State → Out :=
  syllable (.redclose g d a) fun s => s.collective (.redclose d (s.X 1 a).toNat)

/-! Flocks and page passes (R273, R274). -/

/-- FLKADD (R273): the event goes to the rank 0 tile, and the context waits until it is applied. -/
def execFlkadd (g : Guard) (a : Src) (flk : BitVec 8) (st : BitVec 2) : State → Out :=
  syllable (.flkadd g a flk st) fun s => s.request (.flkAdd ((s.X 1 a).toNat + flk.toNat) st) [] 0

/-- FLKDEL (R273). -/
def execFlkdel (g : Guard) (a : Src) (flk : BitVec 8) : State → Out :=
  syllable (.flkdel g a flk) fun s => s.request (.flkDel ((s.X 1 a).toNat + flk.toNat)) [] 0

/-- PGCAST (R274). -/
def execPgcast (g : Guard) (d : Fin 8) (a : Src) (q : Fin 4) : State → Out :=
  syllable (.pgcast g d a q) fun s =>
    match s.pageRec d a with
    | .ok w => s.pushCopy q w
    | .illegal => s
    | .route => s

/-! Merge streams (R277 to R280). -/

def Tile.stream (T : Tile) (k : Fin 4) : MergeStream := T.streams[k]
def Tile.modStream (T : Tile) (k : Fin 4) (f : MergeStream → MergeStream) : Tile :=
  { T with streams := T.streams.set k (f (T.stream k)) }

/-- The 64 FP32 lanes of a vector. -/
def lanes32 (v : VReg) : List (BitVec 32) := tab 64 fun j => BitVec.ofNat 32 (elem 32 v.toNat j)

/-- MERGE (R279): the partial is stored, the entry filled, its slot freed. -/
def execMerge (g : Guard) (a : Src) (b : Src) (c : Src) (st : BitVec 2) : State → Out :=
  syllable (.merge g a b c st) fun s =>
    let k := stream4 st
    let seq := (s.X 2 b).toNat
    let ml := (s.X 3 c).toNat
    let part := (BitVec.ofNat 32 ml, BitVec.ofNat 32 (ml / 2 ^ 32), lanes32 (s.V 1 a))
    s.modTile s.homeTile fun T =>
      let merges := T.merges.map fun e => if e.stream = k ∧ e.seq = seq ∧ e.part.isNone then { e with part := some part } else e
      ({ T with merges := merges }).modStream k fun m =>
        { m with busy := m.busy.map fun x => if x = some seq then none else x }

/-- MRGDRN.open (R280). -/
def execMrgdrnOpen (g : Guard) (a : Src) (st : BitVec 2) : State → Out :=
  syllable (.mrgdrnOpen g a st) fun s =>
    let v := (s.X 1 a).toNat
    s.modTile s.homeTile fun T => T.modStream (stream4 st) fun m =>
      { m with
        opened := true, ctx := s.issuer, lbase := fld v 0 20, lsz := fld v 24 3 + 10, cidx := fld v 32 9,
        nslot := 0, floor := 0, m := 0xFF800000, l := 0, o := List.replicate 64 0 }

/-- a × b + c × d of FP32 codes, exact, then one rounding (R280). -/
def mulAdd2 (a b c d : BitVec 32) : BitVec 32 × Flags :=
  let p := vMul (fp32.decode a.toNat) (fp32.decode b.toNat)
  let q := vMul (fp32.decode c.toNat) (fp32.decode d.toNat)
  let r := vAdd .rne p.1 q.1
  let o := fp32.finish .rne (r.1, r.2 ||| p.2 ||| q.2)
  (BitVec.ofNat 32 o.1, o.2)

/-- The weight VEXP2(RoundNE(x − y)) of MergeIn, in fast mode (R280, R243). -/
def mergeWeight (x y : BitVec 32) : BitVec 32 × Flags :=
  let d := fp32.finish .rne (vAdd .rne (fp32.decode x.toNat) (fp32.decode y.toNat).neg)
  let e := fp32.afun .exp2 false .rne (fp32.decode d.1)
  (BitVec.ofNat 32 e.1, d.2 ||| e.2)

/-- MergeIn (R280). -/
def MergeStream.mergeIn (k : MergeStream) (m l : BitVec 32) (o : List (BitVec 32)) : MergeStream × Flags :=
  let mn := pickFloat fp32 true k.m.toNat m.toNat
  let mnw := BitVec.ofNat 32 mn.1
  let one : BitVec 32 × Flags := (0x3F800000, 0)
  let al := if mn.1 = 0xFF800000 then one else mergeWeight k.m mnw
  let be := if mn.1 = 0xFF800000 then one else mergeWeight m mnw
  let nl := mulAdd2 k.l al.1 l be.1
  let os := List.zipWith (fun x y => mulAdd2 x al.1 y be.1) k.o o
  ({ k with m := mnw, l := nl.1, o := os.map (·.1) },
    mn.2 ||| al.2 ||| be.2 ||| nl.2 ||| Flags.join (os.map (·.2)))

/-- An entry placed by ascending seq. -/
def insertSeq (e : MergeEntry) : List MergeEntry → List MergeEntry
  | [] => [e]
  | x :: r => if e.seq ≤ x.seq then e :: x :: r else x :: insertSeq e r

def sortSeq : List MergeEntry → List MergeEntry
  | [] => []
  | e :: r => insertSeq e (sortSeq r)

/-- A drain (R280): the entries below the limit are merged in ascending seq and freed, and floor rises. -/
def Tile.drain (T : Tile) (k : Fin 4) (limit : Nat) : Tile × Flags :=
  let step (acc : MergeStream × Flags) (e : MergeEntry) : MergeStream × Flags :=
    match e.part with
    | some (m, l, o) => let r := acc.1.mergeIn m l o; (r.1, acc.2 ||| r.2)
    | none => acc
  let (m, fl) := (sortSeq (T.mergesBelow k limit)).foldl step (T.stream k, 0)
  (({ T with merges := T.merges.filter fun e => !(e.stream = k && e.seq < limit) }).modStream k fun _ =>
    { m with floor := max m.floor limit }, fl)

/-- The drain of the bundle in issue, its flags joined into fp.vst (R280). -/
def State.drain (s : State) (k : Fin 4) (limit : Nat) : State :=
  let r := s.here.drain k limit
  (s.modTile s.homeTile fun _ => r.1).modCtx s.issue.agent fun c => { c with fp := c.fp.join .vector r.2 }

/-- MRGDRN.drain (R280). -/
def execMrgdrnDrain (g : Guard) (a : Src) (st : BitVec 2) : State → Out :=
  syllable (.mrgdrnDrain g a st) fun s => s.drain (stream4 st) (s.X 1 a).toNat

/-- MRGDRN.fin (R280). -/
def execMrgdrnFin (g : Guard) (d : Fin 32) (st : BitVec 2) : State → Out :=
  syllable (.mrgdrnFin g d st) fun s =>
    let k := stream4 st
    let s := s.drain k 65536
    let m := s.here.stream k
    let rs := m.o.map fun o => fp32.div .rne (fp32.decode o.toNat) (fp32.decode m.l.toNat)
    (s.modTile s.homeTile fun T => T.modStream k fun m => { m with opened := false }).result
      (.v d (BitVec.ofNat 2048 (packElems 32 (rs.map (·.1))))) (Flags.join (rs.map (·.2))) .vector 4

/-! Reservations (R192). -/

/-- RSV (R192). -/
def execRsv (g : Guard) (d : Fin 32) (a : Src) (dom : BitVec 3) : State → Out :=
  syllable (.rsv g d a dom) fun s => s.request (.rsv (s.X 1 a).toNat (group8 dom)) [] d

/-- UNRSV (R192). -/
def execUnrsv (g : Guard) (d : Fin 32) (a : Src) (dom : BitVec 3) : State → Out :=
  syllable (.unrsv g d a dom) fun s => s.request (.unrsv (s.X 1 a).toNat (group8 dom)) [] d

/-! The link (R310 to R313). -/

/-- The counter of a link copy: none when cnt is 0 (R310). -/
def linkCounter (cnt : Bool) (cidx : BitVec 9) : Option Nat := if cnt then some cidx.toNat else none

def linkStream (st : BitVec 6) : Fin 64 := ⟨st.toNat, st.isLt⟩

/-- LKSEND mode 0 (R311). -/
def execLksendData (g : Guard) (d : Fin 8) (a : Src) (q : Fin 4) (port : Bool) (stream : BitVec 6)
    (nflit : BitVec 14) (cnt : Bool) (cidx : BitVec 9) : State → Out :=
  syllable (.lksendData g d a q port stream nflit cnt cidx) fun s =>
    s.pushCopy q (.send port (linkStream stream) (s.bank.window d) (s.X 1 a).toNat (nflit.toNat + 1)
      (linkCounter cnt cidx))

/-- LKRECV mode 0 (R311). -/
def execLkrecvPost (g : Guard) (d : Fin 8) (a : Src) (q : Fin 4) (port : Bool) (stream : BitVec 6)
    (nflit : BitVec 14) (cnt : Bool) (cidx : BitVec 9) : State → Out :=
  syllable (.lkrecvPost g d a q port stream nflit cnt cidx) fun s =>
    s.pushCopy q (.recv port (linkStream stream) (s.bank.window d) (s.X 1 a).toNat (nflit.toNat + 1)
      (linkCounter cnt cidx))

/-- Entries of a stream of a port, on one side. -/
def CopyWork.ofLink (w : CopyWork) (port : Bool) (stream : Fin 64) (send : Bool) : Bool :=
  match w with
  | .send p k _ _ _ _ => send && p == port && k == stream
  | .recv p k _ _ _ _ => !send && p == port && k == stream
  | .copy _ => false
  | .page _ _ _ _ _ _ _ => false
  | .add _ _ => false

/-- A link transfer that has not yet moved all its flits: an LKSEND with flits to append or to leave, an LKRECV with flits
to land (R311). -/
def CopyEntry.unfinished (e : CopyEntry) (p : Port) : Bool :=
  match e.work with
  | .send _ st _ _ n _ => e.off < n || (p.streams[st]).sendBuf.any fun f => f.1 == e.serial
  | .recv _ _ _ _ _ _ => !e.done
  | _ => false

/-- A reset of a stream on the sending or receiving side (R313): its unfinished entries complete without effect, its
buffer is discarded, and the halt lifts at the first period start not before X(a) and lk.frame. -/
def State.linkReset (s : State) (port : Bool) (stream : Fin 64) (send : Bool) (f : Nat) : State :=
  let s := s.modTile s.homeTile fun T =>
    { T with queues := T.queues.map fun l => l.filter fun e => !(e.work.ofLink port stream send && e.unfinished (s.port port)) }
  s.modPort port fun p =>
    { p with
      streams := p.streams.set stream
        { p.streams[stream] with
          sendBuf := if send then [] else (p.streams[stream]).sendBuf,
          recvBuf := if send then (p.streams[stream]).recvBuf else [],
          halted := true, rearm := some (max f p.frame.toNat) } }

/-- LKSEND mode 1 (R313). -/
def execLksendRst (g : Guard) (a : Src) (port : Bool) (stream : BitVec 6) : State → Out :=
  syllable (.lksendRst g a port stream) fun s => s.linkReset port (linkStream stream) true (s.X 1 a).toNat

/-- LKRECV mode 1 (R313). -/
def execLkrecvRst (g : Guard) (a : Src) (port : Bool) (stream : BitVec 6) : State → Out :=
  syllable (.lkrecvRst g a port stream) fun s => s.linkReset port (linkStream stream) false (s.X 1 a).toNat

/-- LKRECV mode 2 (R311): lk.frame. -/
def execLkrecvFrame (g : Guard) (d : Fin 32) (port : Bool) : State → Out :=
  syllable (.lkrecvFrame g d port) fun s => s.result (.x d ((s.port port).frame.setWidth 64)) 0 .scalar 2

end Sys2Proof.Machine
end

