-- ==== Sys2Proof/Machine/Matrix.lean ====
section
/-!
DEFINITION. The M class (11_matrix.md, R250 to R271): the matrix queue, what its entries take at issue, read when
they begin and write when they complete, and the immediate instructions on panels.
-/
namespace Sys2Proof.Machine

/-! Operands (R254). -/

/-- Panel element (r, c) (R250). -/
def Panel.at_ (p : Panel) (r c : Nat) : Nat := (p.el[32 * r + c]?.getD 0).toNat

/-- Row r of a panel as a string of 32-bit elements. -/
def Panel.row (p : Panel) (r : Nat) : Nat := packElems 32 (tab 32 (p.at_ r))

/-- The vectors of an operand, L bytes each: from panel rows, or from the popped entries run together (R254). -/
def operandVectors (mem : TileMem) (b : Bank) (n len : Nat) : MOperand → List Nat
  | .panel p => tab n fun v => (b.panel p).row v % 2 ^ (8 * len)
  | .ring _ r _ =>
    let bytes := readAll mem.spad (r.addrs r.rd.toNat (n * len))
    tab n fun v => ofBytes ((bytes.drop (v * len)).take len)

/-- The vectors as one string. -/
def operandString (mem : TileMem) (b : Bank) (n len : Nat) (m : MOperand) : Nat :=
  packElems (8 * len) (operandVectors mem b n len m)

/-- The operand value K × b / 8 of R254. -/
def vecLen (f : MFmt) (k : Nat) : Nat := k * f.bits / 8

/-- Survivors per block of MMAS (R259). -/
def survivors (n8 : Bool) : Nat := if n8 then 8 else 16

/-- One block of a compressed column expanded under its metadata word: survivors in ascending order, every other
position 0 (R259). -/
def expandBlock (w : Nat) : Nat → Nat → List Nat → List Nat
  | 0, _, _ => []
  | i + 1, k, vs =>
    if bit w k then
      match vs with
      | v :: r => v :: expandBlock w i (k + 1) r
      | [] => 0 :: expandBlock w i (k + 1) []
    else 0 :: expandBlock w i (k + 1) vs

/-- A column of B expanded (R259): blocks of `n` values, one metadata word each. -/
def expandColumn (n : Nat) : List Nat → List Nat → List Nat
  | [], _ => []
  | w :: ws, vs => expandBlock w 32 0 (vs.take n) ++ expandColumn n ws (vs.drop n)

/-! MMA and MMAS (R258). -/

/-- What MMA and MMAS compute with. -/
structure MmaIn where
  fa : MFmt
  fb : MFmt
  k : Nat
  z : Bool
  win : Option Nat
  ops : List CellOp
  base : Nat
  sa : List (BitVec 256)
  sb : List (BitVec 256)
  rows : List (List Val)
  cols : List (List Val)
deriving DecidableEq, Repr

/-- One element: accumulator, index, lost-significance bit, flags. -/
structure CellOut where
  acc : Nat
  idx : Nat
  lost : Bool
  flags : Flags
deriving DecidableEq, Repr

/-- The group size of a pair (R215). -/
def MmaIn.group (m : MmaIn) : Nat := min m.fa.group m.fb.group

/-- A scale exponent: none for the NaN scale (R211); 0 for unscaled formats. -/
def scaleExp (f : MFmt) (es : List (BitVec 256)) (j r : Nat) : Option Int :=
  if !f.scaled then some 0
  else
    let c := elem 8 (es.getD j 0).toNat r
    if c = 0xFF then none else some ((c : Int) - 127)

/-- One step of the cell-operation sequence on a group (R217, R220, R263). -/
def cellStep (m : MmaIn) (o : CellOp) (a b : List Val) (sa sb : Option Int) (k0 : Nat) (c : CellOut) : CellOut :=
  if m.fa.isInt then
    let ints (f : Int → Int → Int) : List Int := List.zipWith (fun x y => f x.smant y.smant) a b
    match o with
    | .ma => let r := intAcc c.acc (ints (· * ·)); { c with acc := r.1, flags := c.flags ||| r.2 }
    | .ada => let r := intAcc c.acc (ints fun x y => ((x - y).natAbs : Nat)); { c with acc := r.1, flags := c.flags ||| r.2 }
    | .csel => let r := intSelect c.acc c.idx (ints (· * ·)) k0; { c with acc := r.1, idx := r.2 }
  else
    match o with
    | .ma => let r := groupAdd c.acc a b sa sb m.win c.lost; { c with acc := r.1, lost := r.2.1, flags := c.flags ||| r.2.2 }
    | .ada =>
      let r := absDiffAdd c.acc a b sa sb m.win c.lost
      { c with acc := r.1, lost := r.2.1, flags := c.flags ||| r.2.2 }
    | .csel =>
      let r := compareSelect c.acc c.idx a b sa sb k0
      { c with acc := r.1, idx := r.2.1, flags := c.flags ||| r.2.2 }

/-- The groups of an element in ascending K (R258). -/
def cellGroups (m : MmaIn) (r col : Nat) : Nat → Nat → List Val → List Val → CellOut → CellOut
  | 0, _, _, _, c => c
  | n + 1, g, a, b, c =>
    let k0 := g * m.group
    let o := m.ops.getD (g % m.ops.length) .ma
    let c' := cellStep m o (a.take m.group) (b.take m.group) (scaleExp m.fa m.sa (k0 / 32) r)
      (scaleExp m.fb m.sb (k0 / 32) col) (m.base + k0) c
    cellGroups m r col n (g + 1) (a.drop m.group) (b.drop m.group) c'

/-- Init (R258). -/
def cellInit (int : Bool) (o : CellOp) : Nat :=
  match o with
  | .csel => if int then 0x80000000 else 0xFF800000
  | .ma => 0
  | .ada => 0

/-- Element (r, c) of an MMA (R258). -/
def MmaIn.cell (m : MmaIn) (d x : Panel) (i : Nat) : CellOut :=
  let r := i / 32
  let c := i % 32
  let acc := if m.z then cellInit m.fa.isInt (m.ops.headD .ma) else d.at_ r c
  let idx := if m.z then 0 else x.at_ r c
  cellGroups m r c (m.k / m.group) 0 (m.rows.getD r []) (m.cols.getD c []) ⟨acc, idx, d.lost.getLsbD i, 0⟩

/-- The panel, the index panel and the flags of an MMA (R258). -/
def MmaIn.run (m : MmaIn) (d x : Panel) : Panel × Panel × Flags :=
  let out : Vector CellOut 1024 := Vector.ofFn fun i => m.cell d x i.val
  let lost := BitVec.ofNat 1024 (out.toList.foldr (fun e a => 2 * a + e.lost.toNat) 0)
  (⟨out.map fun e => BitVec.ofNat 32 e.acc, lost⟩,
    if m.ops.contains .csel then { x with el := out.map fun e => BitVec.ofNat 32 e.idx } else x,
    Flags.join (out.toList.map (·.flags)))

/-- The groups of a depth (R258). -/
def MmaIn.count (m : MmaIn) : Nat := m.k / m.group

/-- Element (r, c) of an MMA after its first n groups from group g on, started from a partial state (R258, R271). -/
def MmaIn.cellFrom (m : MmaIn) (p : MPart) (n i : Nat) : CellOut :=
  let r := i / 32
  let c := i % 32
  cellGroups m r c n p.g ((m.rows.getD r []).drop (p.g * m.group)) ((m.cols.getD c []).drop (p.g * m.group))
    ⟨p.acc.at_ r c, p.idx.at_ r c, p.acc.lost.getLsbD i, 0⟩

/-- A partial state carried n groups further (R271). -/
def MmaIn.advance (m : MmaIn) (p : MPart) (n : Nat) : MPart :=
  let out : Vector CellOut 1024 := Vector.ofFn fun i => m.cellFrom p n i.val
  let lost := BitVec.ofNat 1024 (out.toList.foldr (fun e a => 2 * a + e.lost.toNat) 0)
  { g := p.g + n,
    acc := ⟨out.map fun e => BitVec.ofNat 32 e.acc, lost⟩,
    idx := { p.idx with el := out.map fun e => BitVec.ofNat 32 e.idx },
    flags := p.flags ||| Flags.join (out.toList.map (·.flags)) }

/-- The partial state in which an MMA begins (R258): no group done. -/
def MmaIn.start (m : MmaIn) (d x : Panel) : MPart :=
  if m.z then
    { g := 0, acc := { d with el := Vector.replicate 1024 (BitVec.ofNat 32 (cellInit m.fa.isInt (m.ops.headD .ma))) },
      idx := { x with el := Vector.replicate 1024 0 }, flags := 0 }
  else ⟨0, d, x, 0⟩

/-- What a stopped MMA writes once it has gone on through its last group (R271). -/
def MmaIn.finish (m : MmaIn) (p : MPart) (x : Panel) : Panel × Panel × Flags :=
  let q := m.advance p (m.count - p.g)
  (q.acc, if m.ops.contains .csel then q.idx else x, q.flags)

/-! Entries: what they read when they begin, and what they write (R251, R261). -/

/-- Panels read through fields a, b and c (R251, R261). -/
def MWork.reads : MWork → List (Fin 4)
  | .mma _ a b md _ _ _ _ _ _ _ _ _ =>
    let panels (o : MOperand) : List (Fin 4) := match o with | .panel n => [n] | .ring _ _ _ => []
    panels a ++ panels b ++ (match md with | some (o, _) => panels o | none => [])
  | .zero _ => []
  | .load _ _ _ _ _ _ => []
  | .store a _ _ _ _ _ _ _ => [a]
  | .rput _ _ _ => []
  | .trn _ a => [a]
  | .scl _ a _ _ => [a]
  | .exp _ a _ _ => [a]
  | .add _ _ => []

/-- Panels written. -/
def MWork.writes : MWork → List (Fin 4)
  | .mma d _ _ _ _ _ _ _ _ ops _ _ _ => if ops.contains .csel then [d, d ^^^ 1] else [d]
  | .zero d => [d]
  | .load d _ _ _ _ _ => [d]
  | .store _ _ _ _ _ _ _ _ => []
  | .rput d _ _ => [d]
  | .trn d _ => [d]
  | .scl d _ _ _ => [d]
  | .exp d _ _ _ => [d]
  | .add _ _ => []

/-- The window offset of element (r, c) (R266). -/
def panelOff (t : Ty) (off stride : Int) (i : Nat) : Int := off + (i / 32 : Nat) * stride + (t.width * (i % 32) : Nat)

/-- The scratchpad bytes that an entry reads when it begins: popped entries, or the elements of MLDP (R251, R255, R266). -/
def MWork.spadReads : MWork → List Nat
  | .mma _ a b md _ _ _ _ _ _ _ _ _ =>
    let ring (o : MOperand) : List Nat := match o with | .panel _ => [] | .ring _ r k => r.addrs r.rd.toNat (k * r.bytes)
    ring a ++ ring b ++ (match md with | some (o, _) => ring o | none => [])
  | .load _ t _ w off stride => (tab 1024 fun i => w.addrs (panelOff t off stride i) t.width).flatten
  | _ => []

/-- The scratchpad bytes that an entry writes when it completes: the elements of MSTP (R266), a counter (R203). -/
def MWork.spadWrites : MWork → List Nat
  | .store _ t _ _ _ w off stride => (tab 1024 fun i => w.addrs (panelOff t off stride i) t.width).flatten
  | .add k _ => counterAddrs k
  | _ => []

/-- What an entry reads when it begins (R251, R255). -/
def MWork.capture (w : MWork) (mem : TileMem) (b : Bank) : MCapture :=
  let c0 : MCapture := ⟨0, 0, 0, [], Panel.zero⟩
  match w with
  | .mma _ a o md fa fb kb _ _ _ _ _ _ =>
    let k := 32 * (kb + 1)
    { c0 with
      opA := operandString mem b 32 (vecLen fa k) a,
      opB := operandString mem b 32 (match md with | some (_, n8) => vecLen fb (k * survivors n8 / 32) | none => vecLen fb k) o,
      opM := match md with | some (m, _) => operandString mem b (k / 32) 128 m | none => 0 }
  | .load _ t _ w off stride => { c0 with els := tab 1024 fun i => spRead mem.spad w (panelOff t off stride i) t.width }
  | .store a _ _ _ _ _ _ _ => { c0 with panel := b.panel a }
  | .trn _ a => { c0 with panel := b.panel a }
  | .scl _ a _ _ => { c0 with panel := b.panel a }
  | .exp _ a _ _ => { c0 with panel := b.panel a }
  | .zero _ => c0
  | .rput _ _ _ => c0
  | .add _ _ => c0

/-- The inputs of an MMA from its captured strings (R254, R259). -/
def mmaIn (md : Option (MOperand × Bool)) (fa fb : MFmt) (kb : Nat) (z : Bool) (win : Nat) (ops : List CellOp)
    (base : Nat) (sa sb : List (BitVec 256)) (c : MCapture) : MmaIn :=
  let k := 32 * (kb + 1)
  let vectors (f : MFmt) (n str : Nat) : List (List Nat) :=
    tab 32 fun v => elemsOf f.bits n (elem (8 * vecLen f n) str v)
  let cols : List (List Nat) :=
    match md with
    | none => vectors fb k c.opB
    | some (_, n8) =>
      let n := survivors n8
      ((vectors fb (k * n / 32) c.opB).zip (List.range 32)).map fun (p : List Nat × Nat) =>
        expandColumn n (tab (k / 32) fun j => elem 32 c.opM (32 * j + p.2)) p.1
  { fa, fb, k, z, win := windowOf win, ops, base, sa, sb,
    rows := (vectors fa k c.opA).map (·.map (mdecode fa)), cols := cols.map (·.map (mdecode fb)) }

/-- An element loaded by MLDP (R266). -/
def loadElem (t : Ty) (u : Bool) (x : Nat) : Nat × Flags :=
  match t with
  | .i16 => (if u then x else wrap 32 (sext 16 x), 0)
  | .i8 => (if u then x else wrap 32 (sext 8 x), 0)
  | .bf16 => fp32.ofVal .rne false (fpBf16.decode x)
  | .f16 => fp32.ofVal .rne false (fp16.decode x)
  | .i32 => (x, 0)
  | .f32 => (x, 0)
  | .i64 => (x, 0)

/-- An element stored by MSTP (R266). -/
def storeElem (t : Ty) (rm : Rm) (sat u : Bool) (x : Nat) : Nat × Flags :=
  match t with
  | .i16 => intOut 16 sat u (sext 32 x)
  | .i8 => intOut 8 sat u (sext 32 x)
  | .bf16 => fpBf16.ofVal rm false (fp32.decode x)
  | .f16 => fp16.ofVal rm false (fp32.decode x)
  | .i32 => (x, 0)
  | .f32 => (x, 0)
  | .i64 => (x, 0)

/-- A panel whose elements are computed one by one, its mask kept (R218). -/
def Panel.build (old : Panel) (f : Nat → Nat × Flags) : Panel × Flags :=
  let out : Vector (Nat × Flags) 1024 := Vector.ofFn fun i => f i.val
  ({ old with el := out.map fun e => BitVec.ofNat 32 e.1 }, Flags.join (out.toList.map (·.2)))

/-- Lane r of a vector as FP32 or INT32 bits. -/
def lane (v : VReg) (r : Nat) : Nat := elem 32 v.toNat r

/-- Element of MEXP (R269). -/
def expElem (s : BitVec 32) (v : VReg) (x : Nat) (r : Nat) : Nat × Flags :=
  let d := vAdd .rne (fp32.decode x) (fp32.decode (lane v r)).neg
  let p := vMul d.1 (fp32.decode s.toNat)
  let y := fp32.finish .rne (p.1, p.2 ||| d.2)
  let e := fp32.afun .exp2 false .rne (fp32.decode y.1)
  (e.1, e.2 ||| y.2)

/-- The inputs of an entry that is an MMA or MMAS. -/
def MWork.mmaOf (w : MWork) (c : MCapture) : Option (Fin 4 × MmaIn) :=
  match w with
  | .mma d _ _ md fa fb kb z win ops base sa sb => some (d, mmaIn md fa fb kb z win ops base sa sb c)
  | _ => none

/-- The writes of an entry to its context's panels, with its flags. -/
def MWork.apply (w : MWork) (c : MCapture) (b : Bank) : Bank × Flags :=
  match w with
  | .mma d _ _ md fa fb kb z win ops base sa sb =>
    let r := (mmaIn md fa fb kb z win ops base sa sb c).run (b.panel d) (b.panel (d ^^^ 1))
    let b := b.modPanel d fun _ => r.1
    (if ops.contains .csel then b.modPanel (d ^^^ 1) fun _ => r.2.1 else b, r.2.2)
  | .zero d => (b.modPanel d fun p => { p with el := Vector.replicate 1024 0 }, 0)
  | .load d t u _ _ _ =>
    let els := c.els.toArray
    let r := (b.panel d).build fun i => loadElem t u (els.getD i 0)
    (b.modPanel d fun _ => r.1, r.2)
  | .store _ _ _ _ _ _ _ _ => (b, 0)
  | .rput d v r =>
    (b.modPanel d fun p =>
      (p.build fun i =>
        if i / 32 = r then (lane v (i % 32), 0)
        else if i / 32 = (r + 1) % 32 then (lane v (32 + i % 32), 0)
        else (p.at_ (i / 32) (i % 32), 0)).1, 0)
  | .trn d _ => (b.modPanel d fun p => (p.build fun i => (c.panel.at_ (i % 32) (i / 32), 0)).1, 0)
  | .scl d _ v rm =>
    let r := (b.panel d).build fun i =>
      fp32.finish rm (vMul (fp32.decode (c.panel.at_ (i / 32) (i % 32))) (fp32.decode (lane v (i / 32))))
    (b.modPanel d fun _ => r.1, r.2)
  | .exp d _ v s =>
    let r := (b.panel d).build fun i => expElem s v (c.panel.at_ (i / 32) (i % 32)) (i / 32)
    (b.modPanel d fun _ => r.1, r.2)
  | .add _ _ => (b, 0)

/-- The writes of an entry that a curtain had stopped: it goes on from its partial state (R271). -/
def MWork.applyFrom (w : MWork) (c : MCapture) (part : Option MPart) (b : Bank) : Bank × Flags :=
  match part, w.mmaOf c with
  | some p, some (d, m) =>
    let r := m.finish p (b.panel (d ^^^ 1))
    let b := b.modPanel d fun _ => r.1
    (if m.ops.contains .csel then b.modPanel (d ^^^ 1) fun _ => r.2.1 else b, r.2.2)
  | _, _ => w.apply c b

/-- What an entry writes to scratchpad: MSTP's elements (R266), a CNTADD's counter (R203). -/
def MWork.applyMem (w : MWork) (c : MCapture) (m : TileMem) : TileMem × Flags :=
  match w with
  | .store _ t rm sat u win off stride =>
    (List.range 1024).foldl (fun acc i =>
      let e := storeElem t rm sat u (c.panel.at_ (i / 32) (i % 32))
      (acc.1.engineStore ((win.addrs (panelOff t off stride i) t.width).zip (bytesOf t.width e.1)), acc.2 ||| e.2))
      (m, 0)
  | .add k v => (m.addCounter k v, 0)
  | _ => (m, 0)

/-- Scale entries an entry has reserved in each queue (R256). -/
def MWork.scales : MWork → Nat
  | .mma _ _ _ _ _ _ _ _ _ _ _ sa _ => sa.length
  | _ => 0

/-- A fence whose queues still hold an entry from before it (R291). -/
def Tile.fenceStands (T : Tile) (f : QFence) : Bool :=
  ((List.range 4).any fun q => bit f.mask q && (T.queues.toList.getD q []).any fun e => e.serial < f.serial) ||
  (bit f.mask 4 && T.mq.any fun e => e.serial < f.serial) || (bit f.mask 5 && T.e5.any fun e => e.serial < f.serial)

/-- Whether an entry of queue q may not yet begin to be performed (R291). -/
def Tile.fenced (T : Tile) (q serial : Nat) : Bool :=
  T.fences.any fun f => bit f.mask q && f.serial ≤ serial && T.fenceStands f

/-- Whether an entry that has not completed keeps a later one from beginning: it has still to write a panel of the
context, or a scratchpad byte, that the later one reads (R251, R261). -/
def MEntry.holds (e x : MEntry) : Bool :=
  (e.ctx == x.ctx && x.work.reads.any e.work.writes.contains) ||
  (!e.work.spadWrites.isEmpty && x.work.spadReads.any e.work.spadWrites.contains)

/-- The first entry of the matrix queue that has not begun, a CNTADD passed over (its occupancy is 0), when it may begin
now: no entry before it holds it (R251, R261), and no fence does (R291). -/
def Tile.mStart (T : Tile) : List MEntry → List MEntry → Option MEntry
  | _, [] => none
  | before, e :: r =>
    match e.begun, e.work with
    | some _, _ => T.mStart (e :: before) r
    | none, .add _ _ => T.mStart (e :: before) r
    | none, _ => if T.fenced 4 e.serial || before.any (·.holds e) then none else some e

/-- MATRIX_ENTRY_START (R261): the next entry begins its array cycles and reads its sources, unless a curtain has
told the queue to stop (R271, R329). -/
def execMatrixEntryStart (t : TileId) (s : State) : Out :=
  .next (s.modTile t fun T =>
    match (if T.stopReq then none else T.mStart [] T.mq) with
    | none => T
    | some e =>
      let cap := e.work.capture T.mem (T.ctx e.ctx).bank
      { T with mq := T.mq.map fun x => if x.serial = e.serial then { x with begun := some cap } else x })

/-- The completion of the head of the matrix queue (R251, R256, R225). -/
def Tile.mWrite (T : Tile) (e : MEntry) (c : MCapture) : Tile :=
  let k := T.ctx e.ctx
  let p := e.work.applyFrom c e.part k.bank
  let m := e.work.applyMem c T.mem
  let n := e.work.scales
  let bank := { p.1 with sqa := p.1.sqa.drop n, sqb := p.1.sqb.drop n }
  { (T.modCtx e.ctx fun x => { x with bank := bank, fp := x.fp.join .matrix (p.2 ||| m.2) }) with
    mem := m.1, mq := T.mq.tail }

/-- What a CNTADD reads when it begins: nothing. -/
def MCapture.none : MCapture := ⟨0, 0, 0, [], Panel.zero⟩

/-- MATRIX_ENTRY_WRITE (R261): the oldest entry writes and completes, once it has begun; a CNTADD completes when it
is the oldest (R203). A queue that a curtain has stopped stands (R271). -/
def execMatrixEntryWrite (t : TileId) (s : State) : Out :=
  .next (s.modTile t fun T =>
    match T.mq with
    | [] => T
    | e :: _ =>
      if T.stopReq then T
      else
        match e.begun, e.work with
        | some c, _ => T.mWrite e c
        | none, .add _ _ => if T.fenced 4 e.serial then T else T.mWrite e MCapture.none
        | none, _ => T)

/-- The last entry that has begun stops at the end of its current group, the one that `at_` picks among those still to
come; where that is its last group, or it has no groups, it completes (R271). It is the head of the queue, before r. -/
def Tile.stopEntry (T : Tile) (at_ : Nat) (e : MEntry) (c : MCapture) (r : List MEntry) : Tile :=
  match e.work.mmaOf c with
  | none => T.mWrite e c
  | some (d, m) =>
    let b := (T.ctx e.ctx).bank
    let p := e.part.getD (m.start (b.panel d) (b.panel (d ^^^ 1)))
    let left := m.count - p.g
    let n := 1 + at_ % max left 1
    if left ≤ n then T.mWrite e c else { T with mq := { e with part := some (m.advance p n) } :: r }

/-- The entries of the matrix queue as it stops, the oldest first: before one that has begun every array cycle is over, so
an entry there completes, a CNTADD too; one that has not begun stays, and so does what follows it (R261, R271). -/
def Tile.stopFrom (at_ : Nat) : List MEntry → Tile → Tile
  | [], T => T
  | e :: r, T =>
    let later := r.any (·.begun.isSome)
    match e.begun with
    | some c => if later then Tile.stopFrom at_ r (T.mWrite e c) else T.stopEntry at_ e c r
    | none => if later then Tile.stopFrom at_ r (T.mWrite e MCapture.none) else T

/-- The matrix queue told to stop (R271). -/
def Tile.stopMatrix (T : Tile) (at_ : Nat) : Tile := Tile.stopFrom at_ T.mq T

/-! The instructions. -/

/-- The scale entries an instruction reserves (R256). -/
def State.takeScales (s : State) (k : Bool) (n : Nat) : List (BitVec 256) :=
  ((s.scaleAvail k).take n).map fun e => match e with | .landed b => b | .claimed _ _ => 0

/-- MMA (R258). -/
def execMma (g : Guard) (d : Fin 4) (a : MSrc) (b : MSrc) (c : Src) (fa : MFmt) (fb : MFmt) (kb : BitVec 3)
    (z : Bool) : State → Out :=
  syllable (.mma g d a b c fa fb kb z) fun s =>
    let n := scalesNeeded fa kb
    s.pushM (.mma d (s.M 1 a) (s.M 2 b) none fa fb kb.toNat z s.issue.ctx.fp.win.toNat s.issue.ctx.ops
      ((s.X 3 c).toNat % 2 ^ 32) (s.takeScales false n) (s.takeScales true n))

/-- MMAS (R259). -/
def execMmas (g : Guard) (d : Fin 4) (a : MSrc) (b : MSrc) (c : MSrc) (fa : MFmt) (fb : MFmt) (kb : BitVec 3)
    (z : Bool) (n8 : Bool) : State → Out :=
  syllable (.mmas g d a b c fa fb kb z n8) fun s =>
    let n := scalesNeeded fa kb
    s.pushM (.mma d (s.M 1 a) (s.M 2 b) (some (s.M 3 c, n8)) fa fb kb.toNat z s.issue.ctx.fp.win.toNat
      s.issue.ctx.ops 0 (s.takeScales false n) (s.takeScales true n))

/-- MZERO (R265). -/
def execMzero (g : Guard) (d : Fin 4) : State → Out :=
  syllable (.mzero g d) fun s => s.pushM (.zero d)

/-- MLDP (R266). -/
def execMldp (g : Guard) (t : Ty) (d : Fin 4) (a : Src) (b : Fin 8) (c : Src) (u : Bool) : State → Out :=
  syllable (.mldp g t d a b c u) fun s =>
    s.pushM (.load d t u (s.bank.window b) (s.X 1 a).toNat (s.X 3 c).toInt)

/-- MSTP (R266). -/
def execMstp (g : Guard) (t : Ty) (d : Fin 8) (a : Src) (b : Fin 4) (c : Src) (rm : Rm) (sat : Bool) (u : Bool) :
    State → Out :=
  syllable (.mstp g t d a b c rm sat u) fun s =>
    s.pushM (.store b t rm sat u (s.bank.window d) (s.X 1 a).toNat (s.X 3 c).toInt)

/-- MROW (R265). -/
def execMrow (g : Guard) (d : Fin 32) (a : Fin 4) (b : Src) : State → Out :=
  syllable (.mrow g d a b) fun s =>
    let r := (s.X 2 b).toNat % 32
    let p := s.bank.panel a
    s.result (.v d (BitVec.ofNat 2048 (p.row r + 2 ^ 1024 * p.row ((r + 1) % 32)))) 0 .matrix 4

/-- MRPUT (R265). -/
def execMrput (g : Guard) (d : Fin 4) (a : Src) (b : Src) : State → Out :=
  syllable (.mrput g d a b) fun s => s.pushM (.rput d (s.V 1 a) ((s.X 2 b).toNat % 32))

/-- MTRN (R265). -/
def execMtrn (g : Guard) (d : Fin 4) (a : Fin 4) : State → Out :=
  syllable (.mtrn g d a) fun s => s.pushM (.trn d a)

/-- A step code of MOPS (R262); code 3 does not decode. -/
def cellOp (n : Nat) : CellOp := if n = 1 then .ada else if n = 2 then .csel else .ma

/-- The sequence of an immediate (R262). -/
def cellOps (imm : Nat) : List CellOp := tab (fld imm 0 3 + 1) fun k => cellOp (fld imm (2 * k + 3) 2)

/-- MOPS (R262): in effect from the next bundle. -/
def execMops (g : Guard) (imm : BitVec 42) : State → Out :=
  syllable (.mops g imm) fun s => s.modCtx s.issue.agent fun c => { c with ops := cellOps imm.toNat }

/-- MWIN (R264). -/
def execMwin (g : Guard) (win : BitVec 3) : State → Out :=
  syllable (.mwin g win) fun s => s.modCtx s.issue.agent fun c => { c with fp := { c.fp with win := win } }

/-- MFLG (R267). -/
def execMflg (g : Guard) (f : MflgForm) : State → Out :=
  syllable (.mflg g f) fun s =>
    match f with
    | .row d a b =>
      s.result (.x d (BitVec.ofNat 64 (fld (s.bank.panel a).lost.toNat (32 * ((s.X 2 b).toNat % 32)) 32))) 0 .matrix 1
    | .any d a => s.result (.p d ((s.bank.panel a).lost != 0)) 0 .matrix 1

/-- MFCLR (R267). -/
def execMfclr (g : Guard) (d : Fin 4) : State → Out :=
  syllable (.mfclr g d) fun s => s.modBank (·.modPanel d fun p => { p with lost := 0 })

/-- MSCL (R270). -/
def execMscl (g : Guard) (d : Fin 4) (a : Fin 4) (b : Src) (rm : Rm) : State → Out :=
  syllable (.mscl g d a b rm) fun s => s.pushM (.scl d a (s.V 2 b) rm)

/-- MEXP (R269). -/
def execMexp (g : Guard) (d : Fin 4) (a : Fin 4) (b : Src) (c : Src) : State → Out :=
  syllable (.mexp g d a b c) fun s => s.pushM (.exp d a (s.V 2 b) ((s.X 3 c).setWidth 32))

/-- The maximum of a row with a starting value (R268). -/
def rowMax (p : Panel) (r x : Nat) : Nat × Flags :=
  (List.range 32).foldl (fun acc c => let q := pickFloat fp32 true acc.1 (p.at_ r c); (q.1, acc.2 ||| q.2)) (x, 0)

/-- MMAX (R268). -/
def execMmax (g : Guard) (d : Fin 32) (a : Fin 4) (b : Src) : State → Out :=
  syllable (.mmax g d a b) fun s =>
    let v := s.V 2 b
    let rs := tab 32 fun r => rowMax (s.bank.panel a) r (lane v r)
    s.result (.v d (BitVec.ofNat 2048 (packElems 32 (rs.map (·.1)) + 2 ^ 1024 * (v.toNat / 2 ^ 1024))))
      (Flags.join (rs.map (·.2))) .matrix 6

end Sys2Proof.Machine
end

