-- ==== Sys2Proof/Machine/Memory.lean ====
section
/-!
DEFINITION. The memory system: the address map (R62), keys (R67), homes (R68 to R70), translation (R63 to R65),
reduction windows (R221, R303), unbacked lines (R76 to R80), the halves of host lines (R72, R345).
-/
namespace Sys2Proof.Machine

/-! The address map (R62). -/

/-- Where a physical address lies (R62); device memory shrinks by 8 GiB a retired channel (R343). -/
inductive Place where
  | device | aperture | peer | host | nowhere
deriving DecidableEq, Repr

def MemSys.place (m : MemSys) (pa : Nat) : Place :=
  if pa < 2 ^ 39 - 2 ^ 33 * m.chans then .device
  else if 2 ^ 39 ≤ pa ∧ pa < 2 ^ 39 + 2 ^ 26 then .aperture
  else if 2 ^ 46 ≤ pa ∧ pa < 2 ^ 47 then .peer
  else if 2 ^ 47 ≤ pa ∧ pa < 2 ^ 48 then .host
  else .nowhere

/-- The number of an aperture frame. -/
def apertureFrame (pa : Nat) : Nat := (pa - 2 ^ 39) / 2 ^ 16

/-- The address an access goes to: an aperture frame in the late map has moved to its late frame (R80). -/
def MemSys.eff (m : MemSys) (pa : Nat) : Nat :=
  if m.place pa = .aperture then
    match m.late.find? fun p => p.1 = apertureFrame pa with
    | some p => p.2 + pa % 2 ^ 16
    | none => pa
  else pa

/-! Owners and keys (R65 to R67). -/

/-- The owner tag of a device frame, from the frame owner table (R65). -/
def MemSys.frameOwner (m : MemSys) (frame : Nat) : OwnerTag := Sparse.get 0 m.bytes (m.fot.toNat + frame)

def MemSys.owner (m : MemSys) (o : OwnerTag) : OwnerReg := m.owners[o.toNat]'(o.isLt)
def MemSys.modOwner (m : MemSys) (o : OwnerTag) (f : OwnerReg → OwnerReg) : MemSys :=
  { m with owners := m.owners.set o.toNat (f (m.owner o)) o.isLt }

/-- The key that a device line is read and written under: the key of its frame's owner (R67). -/
def MemSys.key (m : MemSys) (pa : Nat) : Nat := (m.owner (m.frameOwner (pa / 2 ^ 16))).key

/-- A byte of a device line, decrypted under the key in force: its value where the line was written under it,
unrelated bits otherwise (R67; log 8). -/
def MemSys.deviceByte (m : MemSys) (pa : Nat) : Byte :=
  let raw := Sparse.get 0 m.bytes pa
  let w := Sparse.get 0 m.tags (pa / 128)
  let k := m.key pa
  if w = k then raw else Config.garble w k pa raw

/-- A device line brought under the key in force before part of it is written (R67). -/
def MemSys.rekey (m : MemSys) (line : Nat) : MemSys :=
  if Sparse.get 0 m.tags line = m.key (line * 128) then m
  else
    { m with
      bytes := Sparse.puts 0 m.bytes (tab 128 fun j => (line * 128 + j, m.deviceByte (line * 128 + j))),
      tags := Sparse.put 0 m.tags line (m.key (line * 128)) }

/-! Host halves (R72, R345). -/

/-- The request that takes a half for a write of n bytes: only a copy's write of the whole half needs no data (R345). -/
def ownRequest (pa n : Nat) (copy : Bool) : CxlReq := if copy = true ∧ pa % 64 = 0 ∧ n = 64 then .rdOwnNoData else .rdOwn

/-- What an access to n bytes of host memory must first ask the host for (R345): none when the half it meets is
held as the access needs. A read of a nalloc page that finds no half goes to memory without one (R72); every write
needs the half in M or E (R293; log 78). -/
def MemSys.hostNeed (m : MemSys) (pa n : Nat) (nalloc write : Bool) (copy : Bool := false) : Option CxlReq :=
  if m.place pa ≠ .host then none
  else
    match m.half pa with
    | none => if write then some (ownRequest pa n copy) else if nalloc then none else some .rdShared
    | some h => if write && h.st == .shared then some (ownRequest pa n copy) else none

/-- The half at an address changed, where one is held. -/
def MemSys.modHalf (m : MemSys) (pa : Nat) (f : HostHalf → HostHalf) : MemSys :=
  { m with halves := m.halves.map fun h => if h.half = m.eff pa / 64 then f h else h }

/-! Reduction windows (R221, R303). -/

/-- Bytes of a window's element. -/
def RedWindow.esz (w : RedWindow) : Nat := if w.bf then 2 else 4

def RedWindow.fmt (w : RedWindow) : FFmt := if w.bf then fpBf16 else fp32

/-- The offset in a window of a physical address. -/
def RedWindow.offset (w : RedWindow) (pa : Nat) : Option Nat :=
  ((w.pages.zip (List.range w.pages.length)).findSome? fun p =>
    if p.1 = pa / 2 ^ 16 then
      let off := (w.va / 2 ^ 16 + p.2) * 2 ^ 16 + pa % 2 ^ 16
      if w.va ≤ off ∧ off < w.va + w.len then some (off - w.va) else none
    else none)

/-- The open window over an address, with the offset in it. -/
def MemSys.window (m : MemSys) (pa : Nat) : Option (RedWindow × Nat) :=
  m.wins.findSome? fun w => (w.offset pa).map fun o => (w, o)

/-- An element's current value, as REDCLOSE would write it (R303). -/
def RedWindow.value (w : RedWindow) (i : Nat) : Nat :=
  let e := Sparse.get RedElem.zero w.els i
  redClose w.fmt w.bexp e.acc e.poison

/-- A plain store of an element (R221, step 5). Of a NaN or an infinity step 3 sets the poison bit, step 5 clears it, and
neither names A: the element stays poisoned, with A 0 and a count of 1 (log 122). -/
def RedWindow.store (w : RedWindow) (i : Nat) (bits : Nat) : RedWindow :=
  match redConvert w.bexp (w.fmt.decode bits) with
  | some (a, o) => { w with els := Sparse.put RedElem.zero w.els i ⟨a, 1, false⟩, ovf := w.ovf || o }
  | none => { w with els := Sparse.put RedElem.zero w.els i ⟨0, 1, true⟩, ovf := true }

/-- A reduce-add (R221, step 4). -/
def RedWindow.add (w : RedWindow) (i : Nat) (bits : Nat) : RedWindow :=
  let e := Sparse.get RedElem.zero w.els i
  if 65536 ≤ e.count then { w with els := Sparse.put RedElem.zero w.els i { e with poison := true }, ovf := true }
  else
    match redConvert w.bexp (w.fmt.decode bits) with
    | some (a, o) =>
      { w with els := Sparse.put RedElem.zero w.els i { e with acc := e.acc + a, count := e.count + 1 }, ovf := w.ovf || o }
    | none =>
      { w with els := Sparse.put RedElem.zero w.els i { e with count := e.count + 1, poison := true }, ovf := true }

def MemSys.setWindow (m : MemSys) (w : RedWindow) : MemSys :=
  { m with wins := m.wins.map fun x => if x.owner = w.owner ∧ x.va = w.va then w else x }

/-! Bytes (R284). -/

/-- The byte a read returns. -/
def MemSys.read (m : MemSys) (pa : Nat) : Byte :=
  let pa := m.eff pa
  match m.window pa with
  | some (w, o) => BitVec.ofNat 8 (w.value (o / w.esz) / 2 ^ (8 * (o % w.esz)))
  | none =>
    match m.place pa with
    | .device => m.deviceByte pa
    | .host =>
      match m.half pa with
      | some h => h.data.getD (pa % 64) 0
      | none => Sparse.get 0 m.bytes pa
    | _ => Sparse.get 0 m.bytes pa

def MemSys.readN (m : MemSys) (pa n : Nat) : List Byte := tab n fun j => m.read (pa + j)

/-- Whether n bytes of a line meet an uncorrectable error (R326), or data of a failing channel (R343). -/
def MemSys.badIn (m : MemSys) (pa n : Nat) : Bool :=
  let pa := m.eff pa
  (!m.bad.isEmpty && (List.range n).any fun j => m.bad.contains ((pa + j) / 8)) ||
  (!m.failing.isEmpty && m.place pa == .device && m.failing.contains (Config.channelOf (pa / 128)).val)

/-- A whole unit written loses its error (R326; log 27). -/
def MemSys.clearBad (m : MemSys) (pa n : Nat) : MemSys :=
  { m with bad := m.bad.filter fun u => !(pa ≤ 8 * u && 8 * u + 8 ≤ pa + n) }

/-- Bytes stored from an offset of a window on: element by element, the bytes not stored as they read (R303). -/
def RedWindow.overwrite (w : RedWindow) (o : Nat) (data : List Byte) : RedWindow :=
  (List.range ((o + data.length + w.esz - 1) / w.esz - o / w.esz)).foldl (fun w j =>
    let i := o / w.esz + j
    let old := bytesOf w.esz (w.value i)
    let new := tab w.esz fun b =>
      let at_ := i * w.esz + b
      if o ≤ at_ ∧ at_ < o + data.length then data.getD (at_ - o) 0 else old.getD b 0
    w.store i (ofBytes new)) w

/-- Bytes stored into a cached half, which becomes modified. -/
def HostHalf.overwrite (h : HostHalf) (pa : Nat) (data : List Byte) : HostHalf :=
  { h with
    data := (h.data.zip (List.range 64)).map fun p =>
      if pa ≤ h.half * 64 + p.2 ∧ h.half * 64 + p.2 < pa + data.length then data.getD (h.half * 64 + p.2 - pa) 0 else p.1,
    st := .modified }

/-- Bytes put into memory as they stand. -/
def MemSys.putBytes (m : MemSys) (pa : Nat) (data : List Byte) : MemSys :=
  { m with bytes := Sparse.puts 0 m.bytes ((tab data.length fun j => pa + j).zip data) }

/-- Bytes written at an address where no window is open: under the key in force, into a cached half, or into memory. -/
def MemSys.writePlain (m : MemSys) (pa : Nat) (data : List Byte) : MemSys :=
  match m.place pa with
  | .device => (m.rekey (pa / 128)).putBytes pa data
  | .host =>
    match m.half pa with
    | some h => { m with halves := m.halves.map fun x => if x.half = h.half then h.overwrite pa data else x }
    | none => m.putBytes pa data
  | .aperture => m.putBytes pa data
  | .peer => m.putBytes pa data
  | .nowhere => m.putBytes pa data

/-- Bytes written at an address that has not moved. -/
def MemSys.writeAt (m : MemSys) (pa : Nat) (data : List Byte) : MemSys :=
  match m.window pa with
  | some (w, o) => m.setWindow (w.overwrite o data)
  | none => m.writePlain pa data

/-- Bytes written at their home, within one line (R284, R303): through a window, into a cached half, or into
memory. -/
def MemSys.write (m : MemSys) (pa : Nat) (data : List Byte) : MemSys :=
  (m.clearBad (m.eff pa) data.length).writeAt (m.eff pa) data

/-- The back-invalidation of a line of device memory that the host may hold (R293). -/
def MemSys.backInvLine (m : MemSys) (dev : Bool) (l : Nat) : MemSys × List OutMsg :=
  if dev && m.hostHeld.contains l then ({ m with hostHeld := m.hostHeld.filter fun x => x != l }, [.backInv l])
  else (m, [])

/-- The back-invalidation of a line that the host may hold, before a device write to it (R293). -/
def MemSys.backInv (m : MemSys) (pa : Nat) : MemSys × List OutMsg :=
  m.backInvLine (m.place (m.eff pa) == .device) (m.eff pa / 128)

/-! Slices and homes (R68 to R70). -/

/-- Set bits of a slice mask, upward. -/
def setBits (n v : Nat) : List Nat := (List.range n).filter fun k => bit v k


/-- The slices of a domain. -/
def Domain.slices (d : Domain) : List Nat := setBits 64 d.set.toNat

def powerOf2 (n : Nat) : Bool := n == pow2Up n && n != 0

/-- A domain whose set is empty or whose population is no power of two (R69). -/
def Domain.unusable (d : Domain) : Bool := !powerOf2 d.slices.length

/-- The home of an address in a domain (R69). -/
def Domain.home (d : Domain) (pa : Nat) : Nat :=
  let l := d.slices
  let n := l.length
  let k := Nat.log2 n
  let h := (List.range k).foldl (fun h j => h + parity 32 (fld pa 16 32 &&& ((d.hm[j]?).getD 0).toNat) * 2 ^ j) 0
  l.getD ((fld pa 7 9 + h) % n) 0

/-- The distance of a tile from a slice on the torus (R56, R68, R70). -/
def sliceHops (t : TileId) (s : Nat) : Nat :=
  let dc := (t.val % 24 + 24 - 6 * (s % 4)) % 24
  let dr := (t.val / 24 + 16 - s / 4) % 16
  min dc (24 - dc) + min dr (16 - dr)

/-- The nearest slice, the lowest number on ties (R70). -/
def nearestSlice (t : TileId) : Nat :=
  (List.range 64).foldl (fun b s => if sliceHops t s < sliceHops t b then s else b) 0

/-- The region byte of a frame (R70). -/
def MemSys.regionByte (m : MemSys) (frame : Nat) : Nat := (m.read (m.rgn.toNat + frame)).toNat

/-! Translation (R63, R64). -/

/-- How a walk ends (R183): at a leaf, large or not, with its address; or absent, or in a format or owner fault. -/
inductive Walked where
  | leaf (e : Nat) (large : Bool) (at_ : Nat)
  | absent
  | format
  | owner
deriving DecidableEq, Repr

/-- A table entry, read from memory of owner 0. -/
def MemSys.entry (m : MemSys) (frame i : Nat) : Nat := ofBytes (m.readN (frame * 2 ^ 16 + 8 * i) 8)

/-- A table page lies in device memory, in a frame of owner 0 (R64), and entry i of it meets no uncorrectable error, which
is fault 0x20 as a format error is (R326). -/
def MemSys.tableOk (m : MemSys) (frame i : Nat) : Bool :=
  m.place (frame * 2 ^ 16) == .device && m.frameOwner frame == 0 && !m.badIn (frame * 2 ^ 16 + 8 * i) 8

def leafOwner (e : Nat) : OwnerTag := BitVec.ofNat 8 (fld e 56 8)
def leafHome (e : Nat) : Nat := fld e 52 4
def leafFrame (e : Nat) : Nat := fld e 16 32
def leafUnb (e : Nat) : Bool := bit e 7

/-- The format of a non-leaf entry (R63, R64). -/
def pointerOk (e : Nat) : Bool := fld e 48 16 == 0 && fld e 2 14 == 0

/-- The format of a leaf (R64, R69). -/
def MemSys.leafOk (m : MemSys) (e : Nat) (large : Bool) : Bool :=
  let pl := m.place (leafFrame e * 2 ^ 16)
  let h := leafHome e
  fld e 48 4 == 0 && fld e 8 8 == 0 && !bit e 5 && h ≤ 8 && !(bit e 3 && bit e 4) &&
  (!large || leafFrame e % 2 ^ 13 == 0) &&
  (if leafUnb e then pl == .aperture && !large && h != 8 else pl != .aperture) &&
  !(pl == .host && (h == 8 || bit e 4)) && pl != .nowhere &&
  (h == 8 || !(m.dom (Fin.ofNat 8 h)).unusable)

/-- The owner checks on a leaf (R64): its field, and the frame owner table or the grant of each frame. -/
def MemSys.leafOwned (m : MemSys) (o : OwnerTag) (e : Nat) (large : Bool) : Bool :=
  let f := leafFrame e
  leafOwner e == o &&
  match m.place (f * 2 ^ 16) with
  | .device => (List.range (if large then 2 ^ 13 else 1)).all fun k => m.frameOwner (f + k) == o
  | .aperture => m.grants.contains (apertureFrame (f * 2 ^ 16), o)
  | _ => true

def MemSys.endLeaf (m : MemSys) (o : OwnerTag) (e : Nat) (large : Bool) (at_ : Nat) : Walked :=
  if !m.leafOk e large then .format else if !m.leafOwned o e large then .owner else .leaf e large at_

/-- The walk of an owner's table (R63, R64, R183). -/
def MemSys.walk (m : MemSys) (o : OwnerTag) (va : Nat) : Walked :=
  if 2 ^ 55 ≤ va then .absent
  else
    let root := (m.owner o).root.toNat
    if !m.tableOk root (fld va 42 13) then .format
    else
      let e3 := m.entry root (fld va 42 13)
      if !bit e3 0 then .absent
      else if bit e3 1 || !pointerOk e3 || !m.tableOk (leafFrame e3) (fld va 29 13) then .format
      else
        let e2 := m.entry (leafFrame e3) (fld va 29 13)
        if !bit e2 0 then .absent
        else if bit e2 1 then m.endLeaf o e2 true (leafFrame e3 * 2 ^ 16 + 8 * fld va 29 13)
        else if !pointerOk e2 || !m.tableOk (leafFrame e2) (fld va 16 13) then .format
        else
          let e1 := m.entry (leafFrame e2) (fld va 16 13)
          if !bit e1 0 then .absent
          else if !bit e1 1 then .format
          else m.endLeaf o e1 false (leafFrame e2 * 2 ^ 16 + 8 * fld va 16 13)

/-- The physical address of a virtual one under a leaf (R63). -/
def leafPa (e : Nat) (large : Bool) (va : Nat) : Nat :=
  leafFrame e * 2 ^ 16 + va % (if large then 2 ^ 29 else 2 ^ 16)

/-- A byte string read through an owner's table with the read right, by the drover or the loader: none where some
byte is not mapped so. -/
def MemSys.translate (m : MemSys) (o : OwnerTag) (rd wr : Bool) (va : Nat) : Option Nat :=
  match m.walk o va with
  | .leaf e large _ => if (rd && !bit e 2) || (wr && !bit e 3) then none else some (leafPa e large va)
  | _ => none

/-- Whether every page of a range is mapped with the rights (R365). -/
def MemSys.mapped (m : MemSys) (o : OwnerTag) (rd wr : Bool) (va n : Nat) : Bool :=
  n == 0 || (List.range ((va + n - 1) / 2 ^ 16 + 1 - va / 2 ^ 16)).all fun k =>
    (m.translate o rd wr (if k = 0 then va else (va / 2 ^ 16 + k) * 2 ^ 16)).isSome

/-- Bytes at a virtual address, zero where it does not translate: used where the range has been checked. Of a byte that
carries an error no rule says what the drover or the loader reads (R326, R343; log 98). -/
def MemSys.readVa (m : MemSys) (o : OwnerTag) (va n : Nat) : List Byte :=
  tab n fun j =>
    match m.translate o true false (va + j) with
    | some pa => if m.badIn pa 1 then Config.errorByte pa (m.read pa) else m.read pa
    | none => 0

/-- A little-endian word at a virtual address. -/
def MemSys.word (m : MemSys) (o : OwnerTag) (va : Nat) (n : Nat := 8) : Nat := ofBytes (m.readVa o va n)

/-! Unbacked lines (R76 to R79). -/

/-- An aperture address that is still unbacked. -/
def MemSys.unbacked (m : MemSys) (pa : Nat) : Bool := m.place (m.eff pa) == .aperture

def MemSys.lineIn (m : MemSys) (pa : Nat) : Bool := m.lines.any fun l => l.line == pa / 128

/-- An owner's reservation in a domain, in 64 KiB units (R77). -/
def MemSys.units (m : MemSys) (o : OwnerTag) (d : Fin 8) : Nat :=
  match m.resv.find? fun r => r.owner = o ∧ r.dom = d with
  | some r => r.units
  | none => 0

/-- The quota in lines at every slice of the domain (R77). -/
def MemSys.quota (m : MemSys) (o : OwnerTag) (d : Fin 8) : Nat := m.units o d * 512 / (m.dom d).slices.length

/-- The lines of an owner and domain at a slice: those allocated, and those admitted for an access that is not yet decided
(R77, R189). -/
def MemSys.inUse (m : MemSys) (o : OwnerTag) (d : Fin 8) (s : Nat) : Nat :=
  ((m.lines ++ m.claims.map (·.line)).filter fun l => l.owner = o && l.dom = d && (m.dom d).home (l.line * 128) == s).length

/-- The home slice of an absent line has room for it (R77). -/
def MemSys.hasRoom (m : MemSys) (o : OwnerTag) (d : Fin 8) (line : Nat) : Bool :=
  m.inUse o d ((m.dom d).home (line * 128)) < m.quota o d

/-- A line of an unbacked page that is not allocated (R76). -/
def MemSys.absent (m : MemSys) (line : Nat) : Bool := m.unbacked (line * 128) && !m.lineIn (line * 128)

/-- Lines allocated, each at its home within the quota, or none of them (R76, R77). -/
def MemSys.allocate (m : MemSys) (o : OwnerTag) (d : Fin 8) : List Nat → Option MemSys
  | [] => some m
  | l :: r =>
    if !m.absent l then m.allocate o d r
    else if m.hasRoom o d l then
      (({ m with lines := m.lines ++ [(⟨l, o, d⟩ : UnbLine)] } : MemSys)).allocate o d r
    else none

/-- A line dropped without write-back, its quota returned (R79, R193). -/
def MemSys.drop (m : MemSys) (line : Nat) : MemSys :=
  if m.lineIn (line * 128) then
    { m with
      lines := m.lines.filter fun l => l.line != line,
      bytes := m.bytes.filter fun c => c.1 / 128 != line,
      bad := m.bad.filter fun u => u / 16 != line }
  else m

/-- Every unbacked line of an owner in a domain dropped (R192, R354). -/
def MemSys.dropDomain (m : MemSys) (o : OwnerTag) (d : Fin 8) : MemSys :=
  (m.lines.filter fun l => l.owner = o && l.dom = d).foldl (fun m l => m.drop l.line) m

/-- A reservation set; one of 0 is not listed (R77). -/
def MemSys.setUnits (m : MemSys) (o : OwnerTag) (d : Fin 8) (u : Nat) : MemSys :=
  let rest := m.resv.filter fun r => !(r.owner = o && r.dom = d)
  let r : Reservation := ⟨o, d, u⟩
  { m with resv := if u = 0 then rest else rest ++ [r] }

/-- An admitted RSV stamps its owner as the most recent (R192). -/
def MemSys.stamp (m : MemSys) (o : OwnerTag) : MemSys := { m with rsvs := o :: m.rsvs.filter fun x => x != o }

/-! Lines of late frames (R352). -/

/-- Before a line of a late frame is written: what the frame holds behind it is kept, as it was when the line was last
written back. -/
def MemSys.cover (m : MemSys) (line : Nat) (writtenBack : Bool) : MemSys :=
  if !writtenBack && m.behind.any fun b => b.1 == line then m
  else { m with behind := (line, m.readN (line * 128) 128) :: m.behind.filter fun b => b.1 != line }

/-- A line of a late frame dropped from the cache partition: what was not written back is gone (R352). -/
def MemSys.uncover (m : MemSys) (line : Nat) (writtenBack : Bool) : MemSys :=
  let rest := m.behind.filter fun b => b.1 != line
  match m.behind.find? fun b => b.1 == line with
  | some b => if writtenBack then { m with behind := rest } else ({ m with behind := rest } : MemSys).putBytes (line * 128) b.2
  | none => m

/-- Cache ways of a mode (R74). -/
def cacheWays (mode : BitVec 2) : Nat := if mode = 0 then 8 else if mode = 3 then 12 else 4

/-- The lines of host memory held in the set that a line of a domain goes to (R74; log 41). -/
def MemSys.setLines (m : MemSys) (d : Fin 8) (pa : Nat) : List Nat :=
  ((m.halves.filter fun h =>
    (m.dom h.dom).home (h.half * 64) == (m.dom d).home pa && Config.cacheSet (h.half / 2) == Config.cacheSet (pa / 128)).map
      fun h => h.half / 2).eraseDups

/-- The ways of the cache partition in the set that a line of a domain goes to, less those withdrawn (R74, R343). -/
def MemSys.waysAt (m : MemSys) (d : Fin 8) (pa : Nat) : Nat :=
  let at_ := ((m.dom d).home pa, Config.cacheSet (pa / 128))
  cacheWays m.mode - (m.lost.filter fun x => x == at_).length

/-- Unbacked lines a slice holds in a partition mode (R74). -/
def unbackedLines (mode : Nat) : Nat := if mode = 2 then 8192 else if mode = 3 then 0 else 4096

/-- The quotas at a slice fit its unbacked lines (R77). -/
def MemSys.fitsAt (m : MemSys) (s : Nat) : Bool :=
  ((m.resv.filter fun r => (m.dom r.dom).slices.contains s).map fun r => m.quota r.owner r.dom).sum
    ≤ unbackedLines m.mode.toNat

def MemSys.fits (m : MemSys) : Bool := (List.range 64).all m.fitsAt

/-! Canonical form. -/

/-- Memory lists each address once, rising, and no byte equal to what an unlisted address reads as, 0 (log 1). -/
def Memory.wf (m : MemSys) : Bool := Sparse.wf 0 m.bytes

end Sys2Proof.Machine
end

