-- ==== Sys2Proof/Machine/Remote.lean ====
section
/-!
DEFINITION. Remote accesses at their homes (R284 to R288), walks (R166, R183), allocation decisions (R189), landing
loads (R165, R187, R191), and the host side of host and device memory (R293, R345, R346).
-/
namespace Sys2Proof.Machine

def State.modMemSys (s : State) (f : MemSys → MemSys) : State := { s with mem := f s.mem }

/-- The host is asked for a half, and what needs it waits for the response (R345, R346). -/
def State.askHost (s : State) (pa : Nat) (kind : CxlReq) (o : OwnerTag) (d : Fin 8) (nalloc : Bool) (w : HostWait) : State :=
  let h := pa / 64
  if s.mem.hreqs.any fun q => q.half == h && q.kind == kind then
    s.modMemSys fun m =>
      { m with hreqs := m.hreqs.map fun q =>
          if q.half == h && q.kind == kind then
            { q with waiters := if q.waiters.contains w then q.waiters else q.waiters ++ [w], nalloc := q.nalloc && nalloc }
          else q }
  else
    (s.modMemSys fun m => { m with hreqs := m.hreqs ++ [⟨h, kind, o, d, [w], nalloc⟩] }).emit [.cxl kind h []]

/-- A line comes into the cache partition: where its set is full another one leaves, and which is open (R74, R345;
log 41). -/
def State.makeWay (s : State) (d : Fin 8) (pa : Nat) : State :=
  let l := s.mem.setLines d pa
  if l.contains (pa / 128) || l.length < s.mem.waysAt d pa then s
  else
    let (w, s) := s.freshWord
    s.withMem (s.mem.evictAll (s.mem.halves.filter fun h => h.half / 2 == l.getD (w.toNat % l.length) 0))

/-- Whether a half that was not held comes into a way: not for an access to a nalloc page, which goes to memory (R72), nor
where every way of the set is withdrawn (R343). -/
def MemSys.takesWay (m : MemSys) (d : Fin 8) (pa : Nat) (nalloc : Bool) : Bool := !nalloc && 0 < m.waysAt d pa

/-- A half that came for one access and into no way leaves when the access is over, with what was written (R72, R345;
log 78). -/
def State.passHalf (s : State) (stays : Bool) (pa : Nat) : State :=
  if stays then s else s.withMem (s.mem.evictAll (s.mem.halves.filter fun h => h.half == pa / 64))

/-- Before a line of a late frame is written: whether it has been written back since it was written last is open
(R352; log 79). A store of a nalloc page writes the frame itself, unless the cache still holds what an earlier store left
there (R72). -/
def State.coverLate (s : State) (pa : Nat) (nalloc : Bool) : State :=
  let line := s.mem.eff pa / 128
  if s.mem.eff pa = pa || (nalloc && !s.mem.behind.any fun b => b.1 == line) then s
  else
    let (w, s) := s.freshWord
    s.modMemSys fun m => if nalloc && w.getLsbD 1 then m.uncover line true else m.cover line (w.getLsbD 0)

/-- A line of an unbacked page dropped (R193): from the unbacked ways, or, once converted, from the cache partition
(R352), where it is a write of the line for what the host may hold (R293). -/
def State.dropLine (s : State) (pa : Nat) : State :=
  if s.mem.eff pa = pa then s.modMemSys fun m => m.drop (pa / 128)
  else
    let (w, s) := s.freshWord
    let line := s.mem.eff pa / 128
    let s := if !w.getLsbD 0 && s.mem.behind.any fun b => b.1 == line then s.withMem (s.mem.backInv pa) else s
    s.modMemSys fun m => m.uncover line (w.getLsbD 0)

/-- A write performed at its home: a line the host may hold is back-invalidated first (R293). -/
def State.writeMem (s : State) (pa : Nat) (data : List Byte) (nalloc : Bool := false) : State :=
  let s := s.withMem (s.mem.backInv pa)
  (s.coverLate pa nalloc).modMemSys fun m => m.write pa data

/-- The home slice of a first-touch frame, claimed if no one has (R70). -/
def State.firstTouch (s : State) (t : TileId) (frame : Nat) : Nat × State :=
  let b := s.mem.regionByte frame
  if bit b 7 then (b % 64, s)
  else
    let k := nearestSlice t
    (k, s.writeMem (s.mem.rgn.toNat + frame) [BitVec.ofNat 8 (128 + k)])

/-- A write that finds its unbacked line absent allocates it (R76). Where a DISC has dropped the line since it was
admitted and the quota is full by now, it is not written (log 80). -/
def MemSys.admitLine (m : MemSys) (o : OwnerTag) (d : Fin 8) (pa : Nat) : Option MemSys :=
  if m.unbacked pa then m.allocate o d [pa / 128] else some m

/-- The half at a written address is dirty; a store of a nalloc page owes its write-back (R287, R345). -/
def MemSys.dirty (m : MemSys) (pa : Nat) (nalloc : Bool) : MemSys :=
  m.modHalf pa fun h => { h with st := .modified, wb := h.wb || nalloc }

/-! Accesses of the drover and the loader. -/

/-- A half that the drover or the loader reads or writes: another owner's line leaves (R72), and a half that is not held as
the access needs is requested and granted within its step (R293, R345; log 81). -/
def State.takeHalf (s : State) (o : OwnerTag) (d : Fin 8) (pa n : Nat) (nalloc write : Bool) : State :=
  let s := s.withMem (s.mem.evictOthers pa o)
  match s.mem.hostNeed pa n nalloc write with
  | none => s
  | some k =>
    let s := if s.mem.takesWay d pa nalloc then s.makeWay d pa else s
    let h : HostHalf :=
      ⟨pa / 64, if write then .exclusive else .shared, tab 64 fun j => s.mem.read (pa / 64 * 64 + j), o, d, false⟩
    (s.modMemSys fun m => { m with halves := (m.halves.filter fun x => x.half != pa / 64) ++ [h] }).emit [.cxl k (pa / 64) []]

/-- The parts of n bytes at a virtual address within 64-byte halves: the offset and length of each. -/
def halfParts (va n : Nat) : List (Nat × Nat) :=
  (List.range (if n = 0 then 0 else (va % 64 + n + 63) / 64)).map fun k =>
    let a := if k = 0 then va else (va / 64 + k) * 64
    (a - va, min (64 - a % 64) (va + n - a))

/-- The drover or the loader is about to read bytes at a virtual address: the halves of host memory among them are held
(R293, R345). -/
def State.holdVa (s : State) (o : OwnerTag) (va n : Nat) : State :=
  (halfParts va n).foldl (fun s x =>
    match s.mem.walk o (va + x.1) with
    | .leaf e large _ =>
      let pa := leafPa e large (va + x.1)
      if bit e 2 && s.mem.place pa == .host then
        let d := Fin.ofNat 8 (leafHome e)
        let stays := (s.mem.half pa).isSome || 0 < s.mem.waysAt d pa
        (s.takeHalf o d pa x.2 (bit e 6) false).passHalf stays pa
      else s
    | _ => s) s

/-- Bytes within a half written by the drover through a leaf. -/
def State.writeLeaf (s : State) (o : OwnerTag) (e : Nat) (pa : Nat) (data : List Byte) : State :=
  let d := Fin.ofNat 8 (leafHome e)
  match (if leafUnb e then s.mem.admitLine o d pa else some s.mem) with
  | none => s
  | some m =>
    let at_ := m.eff pa
    let stays := ((m.evictOthers at_ o).1.half at_).isSome || m.takesWay d at_ (bit e 6)
    let s := State.takeHalf { s with mem := m } o d at_ data.length (bit e 6) true
    ((s.writeMem pa data (bit e 6)).modMemSys fun m => m.dirty pa (bit e 6)).passHalf stays at_

/-- Bytes written at a virtual address by the drover or the loader, half by half, where a leaf allows it (R10, R293). -/
def State.writeThrough (may : Nat → Bool) (s : State) (o : OwnerTag) (va : Nat) (data : List Byte) : State :=
  (halfParts va data.length).foldl (fun s x =>
    match s.mem.walk o (va + x.1) with
    | .leaf e large _ =>
      if may e then s.writeLeaf o e (leafPa e large (va + x.1)) ((data.drop x.1).take x.2) else s
    | _ => s) s

/-- Bytes written at a virtual address by the drover, where it translates with the write right. -/
def State.writeVa (s : State) (o : OwnerTag) (va : Nat) (data : List Byte) : State := s.writeThrough (bit · 3) o va data

/-! Order among a context's accesses (R284, R288). -/

def Piece.overlaps (p q : Piece) : Bool := p.pa < q.pa + q.n && q.pa < p.pa + p.n

/-- Two accesses meet in a byte: pieces of memory, or one counter of one tile. -/
def accessesMeet (a : Access) (p : Piece) (b : Access) (q : Piece) : Bool :=
  match a.kind, b.kind with
  | .counterRead t k _, .counterRead t' k' _ => t == t' && k == k'
  | .counterRead _ _ _, _ => false
  | _, .counterRead _ _ _ => false
  | _, _ => p.overlaps q

def AccKind.writes : AccKind → Bool
  | .atomic _ _ _ => true | .cas _ _ _ => true | .store => true | .discard => true
  | .load _ _ => false | .loadV => false | .gather _ _ => false | .scales _ _ => false
  | .counterRead _ _ _ => false

/-- Whether a piece may be performed now: earlier accesses of its context to its bytes have been, an earlier acquire
has been performed (R288), and a release waits for every earlier access. -/
def Tile.mayPerform (T : Tile) (a : Access) (p : Piece) : Bool :=
  (T.accs.filter fun b => b.ctx = a.ctx && b.id < a.id).all fun b =>
    (b.pieces.filter fun q => !q.done).all fun q =>
      !accessesMeet a p b q && !(b.kind.isAtomic && MemOrd.acquires b.ord) &&
      !(a.kind.isAtomic && MemOrd.releases a.ord)

/-! Performing (R185, R187, R193). -/

/-- The new value of AMO (R185) on w bytes. -/
def amoValue (o : AmoOp) (w old x : Nat) : Nat :=
  let n := 8 * w
  match o with
  | .add => (old + x) % 2 ^ n
  | .and => old &&& x
  | .or => old ||| x
  | .xor => old ^^^ x
  | .min => if sext n old ≤ sext n x then old else x
  | .max => if sext n x ≤ sext n old then old else x
  | .minu => min old x
  | .maxu => max old x
  | .swap => x

/-- Data with a part replaced. -/
def setPart (l : List Byte) (at_ : Nat) (part : List Byte) : List Byte :=
  (l.zip (List.range l.length)).map fun p =>
    if at_ ≤ p.2 ∧ p.2 < at_ + part.length then part.getD (p.2 - at_) 0 else p.1

/-- A piece of a store or atomic written, its line allocated again where it has been dropped (R76, R193). -/
def State.writePiece (s : State) (a : Access) (p : Piece) (data : List Byte) : State :=
  match s.mem.admitLine a.owner p.dom p.pa with
  | none => s
  | some m => (State.writeMem { s with mem := m } p.pa data p.nalloc).modMemSys fun m => m.dirty p.pa p.nalloc

/-- What a piece does to memory, and the access's data after it (R284). An atomic is a store of its result, also where it
leaves the value unchanged (R303, R345). -/
def State.performAt (s : State) (a : Access) (p : Piece) : State × List Byte :=
  let old := s.mem.readN p.pa p.n
  match a.kind with
  | .store => (s.writePiece a p ((a.data.drop p.at_).take p.n), a.data)
  | .atomic w o x => (s.writePiece a p (bytesOf w (amoValue o w (ofBytes old) x)), old)
  | .cas w e x => (s.writePiece a p (if ofBytes old = e then bytesOf w x else old), old)
  | .discard => (s.dropLine p.pa, a.data)
  | .counterRead t k _ =>
    if h : t < 384 then (s, bytesOf 8 ((s.tile ⟨t, h⟩).mem.counter k).toNat) else (s, a.data)
  | .load _ _ => (s, setPart a.data p.at_ old)
  | .loadV => (s, setPart a.data p.at_ old)
  | .gather _ _ => (s, setPart a.data p.at_ old)
  | .scales _ _ => (s, setPart a.data p.at_ old)

def Tile.access? (T : Tile) (id : Nat) : Option Access := T.accs.find? fun a => a.id = id

def Tile.setAccess (T : Tile) (a : Access) : Tile :=
  { T with accs := T.accs.map fun b => if b.id = a.id then a else b }

/-- An access that nothing lands for goes once all its pieces are performed. -/
def Tile.sweep (T : Tile) : Tile :=
  { T with accs := T.accs.filter fun a => !(a.dest == .none && a.admitted && a.pieces.all (·.done)) }

/-- An access to the bytes of memory, not to a counter window and not a DISC. -/
def AccKind.touches : AccKind → Bool
  | .counterRead _ _ _ => false | .discard => false
  | .atomic _ _ _ => true | .cas _ _ _ => true | .store => true | .load _ _ => true | .loadV => true
  | .gather _ _ => true | .scales _ _ => true

/-- A release at system scope waits for the host-memory condition of FENCE at that scope (R288). -/
def Access.releasesSystem (a : Access) : Bool := a.kind.isAtomic && MemOrd.releases a.ord && a.sc == .system

/-- One piece of an access performed: its effect, and the access after it. -/
def State.performPiece (r : State × Access) (k : Nat) : State × Access :=
  match r.2.pieces[k]? with
  | none => r
  | some p =>
    let err := r.2.kind.touches && !(r.2.kind == .store) && r.1.mem.badIn p.pa p.n
    let x := r.1.performAt r.2 p
    (x.1, { r.2 with data := x.2, err := r.2.err || err, pieces := setAt r.2.pieces k fun p => { p with done := true } })

/-- Pieces of an access performed one after another, with nothing between them. -/
def State.performPieces (s : State) (t : TileId) (a : Access) (ks : List Nat) : State :=
  let r := ks.foldl State.performPiece (s, a)
  r.1.modTile t fun T => (T.setAccess r.2).sweep

/-- The pieces of an access not yet performed that a condition names. -/
def Access.open_ (a : Access) (f : Piece → Bool) : List Nat :=
  (List.range a.pieces.length).filter fun k =>
    match a.pieces[k]? with | some p => !p.done && f p | none => false

/-- The parts of an access that are performed with part p, with nothing between them: those in the same aligned 8-byte unit
(R285), and in host memory those in the same half, which no snoop splits (R346; log 104). -/
def Access.unit (a : Access) (m : MemSys) (p : Piece) : List Nat :=
  let size := if a.kind.touches && m.place p.pa == .host then 64 else 8
  a.open_ fun q => q.pa / size == p.pa / size

/-- The request that an access makes before parts of it are performed in host memory (R345). -/
def Access.need (a : Access) (m : MemSys) (p : Piece) : Option CxlReq :=
  if a.kind.touches then m.hostNeed (m.eff p.pa) p.n p.nalloc a.kind.writes else none

/-- A part of an access is parked at its router (R73). -/
def State.parked (s : State) (t : TileId) (a : Access) (p : Piece) : Bool :=
  a.kind.toMemory && !p.first && s.mem.parks p.dom t a.id

/-- Part k of an access at its home (R284), with those that are performed with it, when the order of R284 and R288 lets them
all and none is parked (R73); a half that the access needs and the slice does not hold is asked for first (R345). -/
def State.performAccess (s : State) (t : TileId) (id k : Nat) : State :=
  let T := s.tile t
  match T.access? id with
  | none => s
  | some a =>
    match a.pieces[k]? with
    | none => s
    | some p =>
      let ks := a.unit s.mem p
      if p.done || !a.admitted || s.parked t a p ||
          !(ks.all fun j => match a.pieces[j]? with | some q => T.mayPerform a q | none => true) then s
      else
        let s := if a.releasesSystem then s.writeBacks a.owner else s
        let s := if a.kind.touches then s.withMem (s.mem.evictOthers (s.mem.eff p.pa) a.owner) else s
        match a.need s.mem p with
        | some q => s.askHost (s.mem.eff p.pa) q a.owner p.dom p.nalloc (.access t id k)
        | none => s.performPieces t a ks

/-- REMOTE_ACCESS_PERFORMED (R284). -/
def execRemoteAccessPerformed (t : TileId) (id : Nat) (k : Nat) (s : State) : Out := .next (s.performAccess t id k)

/-! Allocation decisions (R77, R78, R189). -/

/-- The lines that an access writes. -/
def Access.lines (a : Access) : List Nat :=
  (a.pieces.map fun p => p.pa / 128).foldl (fun l x => if l.contains x then l else l ++ [x]) []

/-- The context whose bundle asks under a number. -/
def Tile.asker (T : Tile) (id : Nat) : Option (Fin 4 × Ask) :=
  ([0, 1, 2, 3] : List (Fin 4)).findSome? fun c =>
    ((T.ctx c).ask.filter fun a => a.id == id && a.answer.isNone).map fun a => (c, a)

/-- What the home slices have answered an access so far (R189): nothing yet, with the lines admitted; every line admitted
and allocated; or one of them refused, and what was admitted returned. -/
inductive Decision where
  | open_ (m : MemSys)
  | admitted (m : MemSys)
  | refused (m : MemSys)
deriving DecidableEq, Repr

/-- Claims of accesses that no longer ask are returned (R189). -/
def State.liveClaims (s : State) : MemSys :=
  let asks (c : Claim) : Bool :=
    ((s.tile c.tile).asker c.id).isSome || ((s.tile c.tile).access? c.id).any fun a => !a.admitted
  { s.mem with claims := s.mem.claims.filter asks }

/-- The next absent line of an access decided at its home slice (R77, R189): the lines admitted count there until the access
is decided, and it is admitted as a whole with the last of them. -/
def MemSys.decideLine (m : MemSys) (t : TileId) (a : Access) : Decision :=
  let d := (a.pieces.head?.map (·.dom)).getD 0
  let mine (c : Claim) : Bool := c.tile == t && c.id == a.id
  let claimed := (m.claims.filter mine).map (·.line)
  let back : MemSys := { m with claims := m.claims.filter fun c => !mine c }
  let all (l : List UnbLine) : Decision :=
    .admitted { back with lines := back.lines ++ l.filter fun x => !back.lineIn (x.line * 128) }
  match a.lines.filter fun l => m.absent l && !claimed.any fun x => x.line == l with
  | [] => all claimed
  | l :: r =>
    if !m.hasRoom a.owner d l then .refused back
    else if r.isEmpty then all (claimed ++ [⟨l, a.owner, d⟩])
    else .open_ { m with claims := m.claims ++ [⟨t, a.id, ⟨l, a.owner, d⟩⟩] }

/-- Whether the lines of an unbacked access may be decided on now, and how (R73, R189). -/
def State.decideLines (s : State) (t : TileId) (a : Access) : Option Decision :=
  if a.pieces.all fun p => (s.tile t).mayPerform a p && !s.parked t a p then some (s.liveClaims.decideLine t a) else none

/-- The answer to a bundle that asks. One whose handle has lost valid meanwhile goes on to its check (R168). -/
def State.answerAsk (s : State) (t : TileId) (c : Fin 4) (a : Ask) : State :=
  let T := s.tile t
  let answer (s : State) (b : Bool) : State :=
    s.modTile t fun T => T.modCtx c fun k => { k with ask := some { a with answer := some b } }
  if !((T.ctx c).bank.handle a.kept.h).valid then answer s true
  else
    match s.decideLines t { a.kept.access T c with id := a.id } with
    | none => s
    | some (.open_ m) => { s with mem := m }
    | some (.admitted m) => answer { s with mem := m } true
    | some (.refused m) => answer { s with mem := m } false

/-- The answer to the kept access of an ERET (R324): one refused again stays kept, and its ring claim is withdrawn. -/
def State.answerKept (s : State) (t : TileId) (a : Access) : State :=
  match s.decideLines t a with
  | none => s
  | some (.open_ m) => { s with mem := m }
  | some (.admitted m) => State.modTile { s with mem := m } t fun T => T.setAccess { a with admitted := true }
  | some (.refused m) =>
    State.modTile { s with mem := m } t fun T =>
      Tile.modCtx { T with accs := T.accs.filter fun b => b.id != a.id } a.ctx fun c =>
        { c with
          bank := match a.dest with
            | .ring q _ e => c.bank.modRing q fun r => { r with res := r.res - BitVec.ofNat 32 e }
            | _ => c.bank,
          tail := c.tail.map fun tl => if tl.eret = .sent a.id then { tl with eret := .again } else tl }

/-- ALLOCATION_DECISION (R189): the home slices decide on the access of a bundle that asks, or on the kept access of an
ERET (R324). -/
def execAllocationDecision (t : TileId) (id : Nat) (s : State) : Out :=
  let T := s.tile t
  .next (
    match T.asker id, T.access? id with
    | some (c, a), _ => s.answerAsk t c a
    | none, some a => if a.admitted then s else s.answerKept t a
    | none, none => s)

/-! Landing (R165, R187, R188, R191, R205). -/

/-- The bytes a load or atomic lands (R187, R188). -/
def Access.landing (a : Access) : List Byte :=
  match a.kind with
  | .load w sign =>
    let v := ofBytes (a.data.take w)
    bytesOf 8 (if sign then wrap 64 (sext (8 * w) v) else v)
  | .atomic w _ _ => bytesOf 8 (ofBytes (a.data.take w))
  | .cas w _ _ => bytesOf 8 (ofBytes (a.data.take w))
  | .gather e lanes =>
    (lanes.map fun l => match l with | some at_ => bytesOf 4 (ofBytes ((a.data.drop at_).take e)) | none => bytesOf 4 0).flatten
  | .loadV => a.data
  | .store => []
  | .scales _ _ => a.data
  | .discard => []
  | .counterRead _ _ _ => a.data

/-- Landed loads of a ring published in order (R165): prod rises over each whose predecessors have landed. The fuel
bounds the loads. -/
def Tile.publish (c : Fin 4) (q : Fin 16) : Nat → Tile → Tile
  | 0, T => T
  | n + 1, T =>
    match T.accs.find? fun a => a.ctx = c && (match a.dest with | .ring q' _ _ => q' = q | _ => false) with
    | some a =>
      match a.dest with
      | .ring _ _ k =>
        if a.landed then
          Tile.publish c q n (Tile.modCtx { T with accs := T.accs.filter fun b => b.id != a.id } c fun x =>
            { x with bank := x.bank.modRing q fun r => { r with prod := r.prod + BitVec.ofNat 32 k } })
        else T
      | _ => T
    | none => T

/-- LOAD_LANDS (R165): the data of a performed load or atomic lands in its claimed entries; a remote CNTRD lands in
its register (R205). -/
def execLoadLands (t : TileId) (id : Nat) (s : State) : Out :=
  let T := s.tile t
  .next (
    match T.access? id with
    | none => s
    | some a =>
      if a.landed || !a.admitted || !(a.pieces.all (·.done)) then s
      else
        match a.dest with
        | .ring q first k =>
          let r := (T.ctx a.ctx).bank.ring q
          let m := T.mem.engineStore ((r.addrs first.toNat a.landing.length).zip a.landing)
          let T := (Tile.setAccess { T with mem := m } { a with landed := true }).modCtx a.ctx fun c =>
            { c with bank := c.bank.modRing q fun r =>
                { r with poison := (r.poison.filter fun e => !((e - first).toNat < k)) ++
                    (if a.err then tab k fun j => first + BitVec.ofNat 32 j else []) } }
          s.modTile t fun _ => T.publish a.ctx q T.accs.length
        | .reg d =>
          let v := BitVec.ofNat 64 (ofBytes a.data)
          s.modTile t fun T =>
            Tile.modCtx { T with accs := T.accs.filter fun b => b.id != id } a.ctx fun c =>
              { (c.land ⟨.x d v, 0, .scalar, 0, false, none⟩) with
                flight := c.flight.filter fun f => f.access != some id }
        | .scale _ _ => s
        | .none => s)

/-- SCALE_LOAD_LANDS (R191): the claimed entries of a scale queue land. Data that carries an error is a free value
(R326 names no effect on a scale queue; log 28). -/
def execScaleLoadLands (t : TileId) (id : Nat) (s : State) : Out :=
  let T := s.tile t
  .next (
    match T.access? id with
    | none => s
    | some a =>
      match a.dest with
      | .scale b _ =>
        if !(a.pieces.all (·.done)) then s
        else
          let f := s.fresh
          let entry (j : Nat) : BitVec 256 :=
            if a.err then
              BitVec.ofNat 256 (packElems 64 (tab 4 fun i => (Config.freeWord (f + 4 * j + i)).toNat))
            else BitVec.ofNat 256 (ofBytes ((a.data.drop (32 * j)).take 32))
          let s := if a.err then { s with fresh := s.fresh + a.data.length / 8 } else s
          s.modTile t fun T =>
            Tile.modCtx { T with accs := T.accs.filter fun x => x.id != id } a.ctx fun c =>
              { c with bank := c.bank.setScale b ((c.bank.scale b).map fun (e : ScaleEntry) =>
                  match e with
                  | .claimed i j => if i = id then .landed (entry j) else e
                  | .landed _ => e) }
      | _ => s)

/-! Walks (R166, R183). -/

/-- The handle of a leaf (R166, R183). -/
def leafHandle (e : Nat) (large : Bool) (slice : Nat) (va : Nat) : Handle :=
  { valid := true, miss := false, large, nalloc := bit e 6, unb := leafUnb e, write := bit e 3, read := bit e 2,
    owner := leafOwner e, frame := BitVec.ofNat 32 (leafFrame e), slice := BitVec.ofNat 6 slice,
    home := BitVec.ofNat 4 (leafHome e),
    page := BitVec.ofNat 39 (if large then va / 2 ^ 29 * 2 ^ 13 else va / 2 ^ 16), pending := false }

/-- WALK_LANDS (R166): one of the four walks in progress lands in its handle. A first-touch leaf claims the region of the
address walked, also in a 512 MiB page (R70; log 37). -/
def execWalkLands (t : TileId) (c : Fin 4) (h : Fin 16) (s : State) : Out :=
  let T := s.tile t
  .next (
    match (T.walks.take 4).find? fun w => w.ctx = c && w.h = h with
    | none => s
    | some w =>
      let o := T.mem.bnd.owner
      let s := s.modTile t fun T => { T with walks := T.walks.erase w }
      let set (s : State) (x : Handle) : State :=
        s.modCtx (.ctx t c) fun k => { k with bank := k.bank.modHandle h fun _ => x }
      match s.mem.walk o w.va with
      | .leaf e large _ =>
        let (sl, s) := if leafHome e = 8 then s.firstTouch t (leafPa e large w.va / 2 ^ 16) else (0, s)
        set s (leafHandle e large sl w.va)
      | .absent => set s Handle.launch
      | .format => (set s Handle.launch).sysFault (.ctx t c) 0x20
      | .owner => (set s Handle.launch).sysFault (.ctx t c) 0x21)

/-! Invalidation (R167). -/

/-- A handle that an invalidation names (R167). -/
def Handle.named (h : Handle) (o : OwnerTag) (va : Nat) (large : Bool) : Bool :=
  h.valid && h.owner == o &&
  (if large || h.large then h.page.toNat / 2 ^ 13 == va / 2 ^ 29 else h.page.toNat == va / 2 ^ 16)

def Tile.invalidate (T : Tile) (o : OwnerTag) (va : Nat) (large : Bool) : Tile :=
  { T with ctxs := T.ctxs.map fun c =>
      { c with bank := { c.bank with h := c.bank.h.map fun h => if h.named o va large then { h with valid := false } else h } } }

def Image.mapTiles (i : Image) (f : Tile → Tile) : Image := { i with tiles := i.tiles.map f }

/-- Every handle of the page loses valid, in tiles and in images (R167, R333). -/
def State.invalidate (s : State) (o : OwnerTag) (va : Nat) (large : Bool) : State :=
  { s with
    tiles := s.tiles.map fun T => T.invalidate o va large,
    pads := s.pads.map fun p => { p with image := p.image.map fun i => i.mapTiles fun T => T.invalidate o va large } }

/-- TRANSLATION_INVALIDATION (R167). -/
def execTranslationInvalidation (o : OwnerTag) (va : BitVec 64) (large : Bool) (s : State) : Out :=
  .next (s.invalidate o va.toNat large)

/-! The host (R293, R345, R346). -/

/-- The half after a response (R345): a half already held in M or E stays so. -/
def HostReq.held (q : HostReq) (old : Option HostHalf) (own : Bool) (data : List Byte) : HostHalf :=
  match old with
  | some x => if x.st == .shared then { x with st := if own then .exclusive else .shared } else x
  | none => ⟨q.half, if own then .exclusive else .shared, data, q.owner, q.dom, false⟩

/-- A snoop (R345): what is answered, and the half after it. A half that is taken away while its ownership is asked for
makes the slice ask again (R346). -/
def State.snoop (s : State) (hpa : Nat) (after : HostHalf → Option HostHalf) (toHost : Bool) : State :=
  let h := (2 ^ 47 + hpa) / 64
  match s.mem.halves.find? fun x => x.half = h with
  | none => s.emit [.snoop h none]
  | some x =>
    let dirty := x.st == .modified
    let bytes := if dirty && toHost then Sparse.puts 0 s.mem.bytes ((tab 64 fun j => h * 64 + j).zip x.data) else s.mem.bytes
    let rest := s.mem.halves.filter fun y => y.half != h
    let m := { s.mem with bytes, halves := match after x with | some y => rest ++ [y] | none => rest }
    let again := if (after x).isSome then [] else (s.mem.hreqs.filter fun q => q.half == h).map fun q => OutMsg.cxl q.kind h []
    State.emit { s with mem := m } ([.snoop h (if dirty then some x.data else none)] ++ again)

/-- SNP_DATA (R345). -/
def execSnpData (hpa : Nat) (s : State) : Out := .next (s.snoop hpa (fun x => some { x with st := .shared, wb := false }) true)

/-- SNP_INV (R345). -/
def execSnpInv (hpa : Nat) (s : State) : Out := .next (s.snoop hpa (fun _ => none) true)

/-- SNP_CUR (R345). -/
def execSnpCur (hpa : Nat) (s : State) : Out := .next (s.snoop hpa some false)

/-- HOST_MEMORY_ACCESS (R293): a host read or write of at most 64 bytes of device memory over CXL.mem, performed at
the line's home; or of its own memory, in which a read first takes SnpData of a half that is held, and a write SnpInv
(R345). Before the device is ready it answers no access (R361). -/
def execHostMemoryAccess (pa : Nat) (n : Nat) (w : Option (BitVec 512)) (s : State) : Out :=
  let n := min n (64 - pa % 64)
  .next (
    if !s.dev.ready && s.mem.place pa == .device then s.emit [.memData pa none]
    else
    match s.mem.place pa, w with
    | .device, none =>
      let s := s.modMemSys fun m => { m with hostHeld := pa / 128 :: m.hostHeld.filter fun l => l != pa / 128 }
      s.emit [.memData pa (if s.mem.badIn pa n then none else some (s.mem.readN pa n))]
    | .device, some v => s.modMemSys fun m => m.write pa (bytesOf n v.toNat)
    | .host, none =>
      let s := match s.mem.half pa with
        | some _ => s.snoop (pa - 2 ^ 47) (fun x => some { x with st := .shared, wb := false }) true
        | none => s
      s.emit [.memData pa (some (s.mem.readN pa n))]
    | .host, some v =>
      let s := match s.mem.half pa with | some _ => s.snoop (pa - 2 ^ 47) (fun _ => none) true | none => s
      s.modMemSys fun m => m.write pa (bytesOf n v.toNat)
    | _, _ => s.emit [.memData pa none])

end Sys2Proof.Machine
end

