-- ==== Sys2Proof/Machine/Copies.lean ====
section
/-!
DEFINITION. Sequencers and copies at work (R169 to R173, R198 to R202), the scheduled plane (R27, R61, R356), and
completions (R172, R199, R203).
-/
namespace Sys2Proof.Machine

/-! Queues. -/

def Tile.queue (T : Tile) (q : Fin 4) : List CopyEntry := T.queues[q]
def Tile.modQueue (T : Tile) (q : Fin 4) (f : List CopyEntry → List CopyEntry) : Tile :=
  { T with queues := T.queues.set q (f (T.queue q)) }

/-- The head of a copy queue changed. -/
def State.modHead (s : State) (t : TileId) (q : Fin 4) (f : CopyEntry → CopyEntry) : State :=
  s.modTile t fun T => T.modQueue q fun l => setAt l 0 f

/-- The head of a copy queue, when it may be performed: not stopped, held or fenced (R171, R291). -/
def Tile.head? (T : Tile) (q : Fin 4) : Option CopyEntry :=
  match T.queue q with
  | [] => none
  | e :: _ => if e.stopped.isSome || e.held || T.fenced q.val e.serial then none else some e

/-- A copy stops at a byte offset (R171, R202): its record goes to the owning context, and a restart translates its
fragment again. A link transfer goes on from the flit at the offset. -/
def State.stopCopy (s : State) (t : TileId) (q : Fin 4) (e : CopyEntry) (cause off : Nat) : State :=
  let at_ := match e.work with | .send _ _ _ _ _ _ => off / 128 | _ => off
  (s.modHead t q fun e => { e with stopped := some cause, off := at_, frag := none }).sendRecord t e.ctx 0x10
    (q.val + 256 * cause) off (some q)

/-- A system fault of a copy queue (R202, R325): the queue stands; no context is stopped. -/
def State.unitFault (s : State) (t : TileId) (c : Option (Fin 4)) (code : Nat) : State :=
  let T := s.tile t
  let (i0, s) := s.freshWord
  let (i1, s) := s.freshWord
  let pc := match c with | some c => (T.ctx c).pc | none => 0
  { s with faults := s.faults ++ [⟨code, T.pad, T.mem.bnd.rank t, c, pc, i0, i1⟩] }

def State.faultCopy (s : State) (t : TileId) (q : Fin 4) (e : CopyEntry) (code : Nat) : State :=
  (s.modHead t q fun e => { e with held := true }).unitFault t (some e.ctx) code

/-! Exchange banks (R297). -/

def TileMem.bank (m : TileMem) (one : Bool) : Sparse Byte := if one then m.bank1 else m.bank0
def TileMem.setBank (m : TileMem) (one : Bool) (b : Sparse Byte) : TileMem :=
  if one then { m with bank1 := b } else { m with bank0 := b }

/-- The error unit of a bank offset: units above those of scratchpad (R326). -/
def bankUnit (one : Bool) (off : Nat) : Nat := 2 ^ 17 + one.toNat * 2 ^ 14 + off / 8

/-- Bytes written into the wing bank at an offset. A dir-4 copy that a sequencer emits may pass the end of the bank (R196
checks only the record that it loads): it goes on at the start (log 35). -/
def TileMem.wingWrite (m : TileMem) (off : Nat) (data : List Byte) : TileMem :=
  let w := !m.stage1
  let cells := (tab data.length fun j => (off + j) % 2 ^ 17).zip data
  { m.setBank w (Sparse.puts 0 (m.bank w) cells) with
    poison := m.poison.filter fun u => !(cells.any fun c => bankUnit w c.1 == u) }

/-- Bytes of the stage bank. -/
def TileMem.stageRead (m : TileMem) (off n : Nat) : List Byte :=
  tab n fun j => Sparse.get 0 (m.bank m.stage1) ((off + j) % 2 ^ 17)

def TileMem.stageBad (m : TileMem) (off n : Nat) : Bool :=
  (List.range n).any fun j => m.poison.contains (bankUnit m.stage1 ((off + j) % 2 ^ 17))

/-- Scratchpad bytes through a window that meet an error (R326). -/
def TileMem.spadBad (m : TileMem) (l : List Nat) : Bool := !m.poison.isEmpty && l.any fun a => m.poison.contains (a / 8)

/-! Memory fragments (R171). -/

/-- The address of a copy on its memory side. -/
def CopyRec.memVa (r : CopyRec) : Nat := if r.dir = 0 ∨ r.dir = 4 then r.src else r.dst

/-- Where the fragment holding offset `off` begins. -/
def CopyRec.fragment (r : CopyRec) (off : Nat) : Nat := (r.memVa + off) / 2 ^ 16 * 2 ^ 16 - r.memVa

/-- Bytes up to the end of the fragment. -/
def CopyRec.fragEnd (r : CopyRec) (off : Nat) : Nat :=
  min r.len (((r.memVa + off) / 2 ^ 16 + 1) * 2 ^ 16 - r.memVa)

/-- Bytes of the 64-byte half of a line that offset `off` lies in: they move at once (R346). -/
def CopyRec.halfLen (r : CopyRec) (off : Nat) : Nat := min (64 - (r.memVa + off) % 64) (r.len - off)

/-- The offset of the copy's first byte in the line that offset `off` lies in (R202, cause 5). -/
def CopyRec.lineStart (r : CopyRec) (off : Nat) : Nat := (r.memVa + off) / 128 * 128 - r.memVa

/-- What translating an address for a copy answers: a physical address with its home attributes, a stop, or a
system fault. -/
inductive Fragment where
  | at_ (pa : Nat) (e : Nat)
  | stop (cause : Nat)
  | fault (code : Nat)
deriving DecidableEq, Repr

def MemSys.fragmentAt (m : MemSys) (o : OwnerTag) (va : Nat) (rd wr : Bool) : Fragment :=
  match m.walk o va with
  | .absent => .stop 1
  | .format => .fault 0x20
  | .owner => .fault 0x21
  | .leaf e large _ =>
    if (rd && !bit e 2) || (wr && !bit e 3) then .stop 2
    else if m.place (leafPa e large va) = .peer then .stop 3
    else .at_ (leafPa e large va) e

/-- The first-touch claim of a fragment (R70). -/
def State.claimHome (s : State) (t : TileId) (pa e : Nat) : State :=
  if leafHome e = 8 then (s.firstTouch t (pa / 2 ^ 16)).2 else s

/-- What the translation of the fragment at an address answers: that of the fragment the copy has reached, made once
(R171). -/
def CopyEntry.fragment (e : CopyEntry) (m : MemSys) (o : OwnerTag) (va : Nat) (rd wr : Bool) : Fragment :=
  match e.frag with
  | some (page, base, lf) => if page = va / 2 ^ 16 then .at_ (base + va % 2 ^ 16) lf else m.fragmentAt o va rd wr
  | none => m.fragmentAt o va rd wr

/-- Bytes of a half written by a copy at their home. -/
def State.writeHalf (s : State) (pa : Nat) (lf : Nat) (data : List Byte) : State :=
  (s.writeMem pa data (bit lf 6)).modMemSys fun m => m.dirty pa (bit lf 6)

/-! Performing (R198). -/

/-- The elements of a line reduce-added (R198, R221). Where a sequencer emits a copy to an address that is no multiple of the
element size, each element goes to the one its first byte lies in, and what is left of the line is not added (log 35). -/
def MemSys.reduceAdd (m : MemSys) (pa : Nat) (bf : Bool) (data : List Byte) : MemSys :=
  let w := if bf then 2 else 4
  (List.range (data.length / w)).foldl (fun m j =>
    match m.window (m.eff (pa + w * j)) with
    | some (x, off) => m.setWindow (x.add (off / w) (ofBytes ((data.drop (w * j)).take w)))
    | none => m) m

/-- A dir-5 fragment lies in one open window of the owner with the record's element type (R202). -/
def MemSys.inWindow (m : MemSys) (o : OwnerTag) (bf : Bool) (pa n : Nat) : Bool :=
  m.wins.any fun w => w.owner == o && w.bf == bf && (w.offset pa).isSome && (w.offset (pa + n - 1)).isSome

/-- The tiles of a dir-4 rectangle in snake order (R198). -/
def snake (b : Boundary) (dst : Nat) : List Nat :=
  let c0 := fld dst 10 5
  let r0 := fld dst 15 4
  let n := fld dst 19 5 + 1
  (List.range (fld dst 24 4 + 1)).flatMap fun r =>
    (List.range n).map fun c => b.at_ (c0 + (if r % 2 = 0 then c else n - 1 - c)) (r0 + r)

/-- A request to a page of a domain that is held is parked (R73), unless the host has been asked for it before. -/
def MemSys.held (m : MemSys) (lf : Nat) (asked : Bool) : Bool :=
  leafHome lf != 8 && (m.dom (Fin.ofNat 8 (leafHome lf))).hold && !asked

/-- One half line of a copy with a memory side (R171, R198, R202); `asked` says that the host has answered for it. -/
def State.copyHalf (s : State) (t : TileId) (q : Fin 4) (e : CopyEntry) (r : CopyRec) (asked : Bool) : State :=
  let T := s.tile t
  let o := T.mem.bnd.owner
  let va := r.memVa + e.off
  let n := r.halfLen e.off
  let frag := r.fragment e.off
  let wr := r.dir == 1 || r.dir == 5
  match e.fragment s.mem o va (!wr) wr with
  | .stop c => s.stopCopy t q e c frag
  | .fault c => s.faultCopy t q e c
  | .at_ pa lf =>
    let s := if e.frag.any fun f => f.1 == va / 2 ^ 16 then s else s.claimHome t pa lf
    let s := s.modHead t q fun e => { e with begun := true, frag := some (va / 2 ^ 16, pa - va % 2 ^ 16, lf) }
    let nalloc := bit lf 6
    let pa' := s.mem.eff pa
    if s.mem.held lf asked then s
    else
    let s := s.withMem (s.mem.evictOthers pa' o)
    let go (s : State) : State :=
      s.modHead t q fun e => { e with off := e.off + n, done := e.off + n == r.len }
    if r.dir = 5 then
      let fpa := pa - (e.off - frag)
      let src := r.swin.addrs ((r.src + e.off : Nat) : Int) n
      if !s.mem.inWindow o r.bf16 fpa (r.fragEnd e.off - frag) then s.stopCopy t q e 4 frag
      else if T.mem.spadBad src then s.stopCopy t q e 7 frag
      else go ((s.withMem (s.mem.backInv pa)).modMemSys fun m => m.reduceAdd pa r.bf16 (readAll T.mem.spad src))
    else
      match s.mem.hostNeed pa' n nalloc wr true with
      | some k => s.askHost pa' k o (Fin.ofNat 8 (leafHome lf)) nalloc (.copy t q)
      | none =>
        if r.dir = 1 then
          let src := r.swin.addrs ((r.src + e.off : Nat) : Int) n
          if T.mem.spadBad src then s.stopCopy t q e 7 frag
          else
            match (if leafUnb lf then s.mem.admitLine o (Fin.ofNat 8 (leafHome lf)) pa else some s.mem) with
            | none => s.stopCopy t q e 5 (r.lineStart e.off)
            | some m => go (State.writeHalf { s with mem := m } pa lf (readAll T.mem.spad src))
        else if s.mem.badIn pa n then s.stopCopy t q e 7 frag
        else
          let data := s.mem.readN pa n
          if r.dir = 0 then
            go (s.modMem t fun m => m.engineStore ((r.dwin.addrs ((r.dst + e.off : Nat) : Int) n).zip data))
          else
            go ((snake T.mem.bnd r.dst).foldl (fun s k =>
              s.modMem (tileOf k) fun m => m.wingWrite (fld r.dst 0 10 * 128 + e.off) data) s)

/-- The paddock's network of a tile. -/
def State.net (s : State) (t : TileId) : PadNet :=
  match (s.tile t).pad with
  | some p => ((s.pad? p).map (·.net)).getD PadNet.empty
  | none => PadNet.empty

/-- Tiles of a paddock. -/
def State.padTiles (s : State) (p : Nat) : List TileId :=
  (List.finRange 384).filter fun t => (s.tile t).pad == some p

/-- Every tile of the paddock has arrived at the scene (R298). -/
def State.allArrived (s : State) (p : Nat) (net : PadNet) : Bool :=
  (s.padTiles p).all fun t => net.scenes.any fun m => m.rank == s.rank t

/-- A dir-4 rectangle outside the paddock: an emission of a sequencer can name one (R58). -/
def outsidePaddock (b : Boundary) (dst : Nat) : Bool :=
  b.cols.toNat < fld dst 10 5 + fld dst 19 5 + 1 || b.rows.toNat < fld dst 15 4 + fld dst 24 4 + 1

/-- The head of a queue moves its next half line, its stage-bank bytes, or its flits (R198); a page pass translates its page,
claims first-touch regions (R70), and sends its begin event (R275). A dir-3 copy moves at once and has no fragment of memory:
for data in error it stops at its start (log 121). -/
def State.performCopy (s : State) (t : TileId) (q : Fin 4) (asked : Bool := false) : State :=
  let T := s.tile t
  match T.head? q with
  | none => s
  | some e =>
    if e.done then s
    else
      match e.work with
      | .add _ _ => s
      | .copy r =>
        if r.dir = 2 then s
        else if r.dir = 3 then
          if (s.net t).scenes.any fun m => m.rank == s.rank t && m.serial ≤ e.serial then s
          else if T.mem.stageBad r.src r.len then s.stopCopy t q e 7 0
          else
            let data := T.mem.stageRead r.src r.len
            (s.modMem t fun m => m.engineStore ((r.dwin.addrs (r.dst : Int) r.len).zip data)).modHead t q fun e =>
              { e with off := r.len, done := true, begun := true }
        else if r.dir = 4 && outsidePaddock T.mem.bnd r.dst then s.faultCopy t q e 0x22
        else if r.dir = 4 && !e.begun && s.allArrived (T.pad.getD 0) (s.net t) then s
        else s.copyHalf t q e r asked
      | .page cu _ _ len src seq flk =>
        if e.begun then s
        else
          let pages := (List.range ((src + len - 1) / 2 ^ 16 + 1 - src / 2 ^ 16)).map fun k =>
            s.mem.fragmentAt T.mem.bnd.owner ((src / 2 ^ 16 + k) * 2 ^ 16) true false
          match pages.find? fun f => match f with | .at_ _ _ => false | _ => true with
          | some (.stop c) => s.stopCopy t q e c 0
          | some (.fault c) => s.faultCopy t q e c
          | _ =>
            let frags := pages.filterMap fun f => match f with | .at_ pa lf => some (pa, lf) | _ => none
            let s := frags.foldl (fun s f => s.claimHome t f.1 f.2) s
            (s.modNet t fun n =>
              { n with passes := n.passes ++ [⟨s.rank t, q, e.serial, cu, seq, flk, src, len, [], none, frags⟩] }).modHead
              t q fun e => { e with begun := true }
      | .send port st win off n _ =>
        let P := (s.port port).streams[st]
        if n ≤ e.off then s
        else
          let k := min (64 - P.sendBuf.length) (n - e.off)
          let src := win.addrs ((off + 128 * e.off : Nat) : Int) (128 * k)
          if T.mem.spadBad src then s.stopCopy t q e 7 (128 * e.off)
          else
            let bytes := readAll T.mem.spad src
            let flits := tab k fun j => (e.serial, BitVec.ofNat 1024 (ofBytes ((bytes.drop (128 * j)).take 128)))
            (s.modPort port fun p =>
              { p with streams := p.streams.set st { p.streams[st] with sendBuf := (p.streams[st]).sendBuf ++ flits } }).modHead
              t q fun e => { e with off := e.off + k, begun := true }
      | .recv port st win off n _ =>
        let P := (s.port port).streams[st]
        let earlier := T.queues.toList.any fun l => l.any fun x => x.work.ofLink port st false && !x.done && x.serial < e.serial
        if earlier then s
        else
          let k := min P.recvBuf.length (n - e.off)
          let data := ((P.recvBuf.take k).map fun f => bytesOf 128 f.toNat).flatten
          let s := s.modPort port fun p =>
            { p with streams := p.streams.set st { p.streams[st] with recvBuf := (p.streams[st]).recvBuf.drop k } }
          (s.modMem t fun m => m.engineStore ((win.addrs ((off + 128 * e.off : Nat) : Int) (128 * k)).zip data)).modHead t q
            fun e => { e with off := e.off + k, begun := true, done := e.off + k == n }

/-- COPY_PERFORM (R198). -/
def execCopyPerform (t : TileId) (q : Fin 4) (s : State) : Out := .next (s.performCopy t q)

/-! Completion (R172, R199, R203). -/

/-- A counter of a tile gains a value. -/
def State.count (s : State) (t : TileId) (k : Nat) (v : Nat) : State :=
  s.modMem t fun m => m.addCounter k (BitVec.ofNat 64 v)

/-- The head of a queue has completed and leaves it. -/
def State.popCopy (s : State) (t : TileId) (q : Fin 4) : State :=
  s.modTile t fun T => T.modQueue q fun l =>
    match l.drop 1 with
    | [] => []
    | e :: r => { e with entered := max e.entered (T.sceneCycle + 1) } :: r

/-- The counter add in memory of cplace 3 (R199, R202, cause 6); one that meets an uncorrectable error stops the copy as every
read of it does (R326, R343). -/
def State.addMemory (s : State) (t : TileId) (q : Fin 4) (e : CopyEntry) (r : CopyRec) (v : Nat) (asked : Bool) : State :=
  let o := (s.tile t).mem.bnd.owner
  match s.mem.fragmentAt o r.cva true true with
  | .stop _ => s.stopCopy t q e 6 r.len
  | .fault c => s.faultCopy t q e c
  | .at_ pa lf =>
    let s := s.claimHome t pa lf
    let d := Fin.ofNat 8 (leafHome lf)
    let pa' := s.mem.eff pa
    if s.mem.held lf asked then s
    else
    let s := s.withMem (s.mem.evictOthers pa' o)
    match s.mem.hostNeed pa' 8 (bit lf 6) true with
    | some k => s.askHost pa' k o d (bit lf 6) (.add t q)
    | none =>
      match (if leafUnb lf then s.mem.admitLine o d pa else some s.mem) with
      | none => s.stopCopy t q e 6 r.len
      | some m =>
        if m.badIn pa 8 then s.stopCopy t q e 7 r.len
        else
          let old := ofBytes (m.readN pa 8)
          (State.writeHalf { s with mem := m } pa lf (bytesOf 8 (old + v))).popCopy t q

/-- The head of a queue whose bytes are complete makes its counter add and leaves (R172); a CNTADD adds when it is the head
(R203). -/
def State.completeCopy (s : State) (t : TileId) (q : Fin 4) (asked : Bool := false) : State :=
  let T := s.tile t
  match T.head? q with
  | none => s
  | some e =>
    match e.work with
    | .add k v => (s.modMem t fun m => m.addCounter k v).popCopy t q
    | .copy r =>
      if !e.done then s
      else
        let v := if r.one then 1 else r.len
        if r.cplace = 0 then s.popCopy t q
        else if r.cplace = 1 then
          if r.dir = 4 then ((snake T.mem.bnd r.dst).foldl (fun s k => s.count (tileOf k) r.cidx v) s).popCopy t q
          else (s.count t r.cidx v).popCopy t q
        else if r.cplace = 2 then (s.count (tileOf (T.mem.bnd.ofRank r.crank)) r.cidx v).popCopy t q
        else s.addMemory t q e r v asked
    | .page _ cnt cidx _ _ _ _ => if !e.done then s else (if cnt then s.count t cidx 1 else s).popCopy t q
    | .send port st _ _ n cnt =>
      if e.off < n || ((s.port port).streams[st]).sendBuf.any fun f => f.1 == e.serial then s
      else (match cnt with | some k => s.count t k (128 * n) | none => s).popCopy t q
    | .recv _ _ _ _ n cnt =>
      if !e.done then s else (match cnt with | some k => s.count t k (128 * n) | none => s).popCopy t q

/-- COPY_COMPLETION (R172). -/
def execCopyCompletion (t : TileId) (q : Fin 4) (s : State) : Out := .next (s.completeCopy t q)

/-! The scheduled plane (R27, R28, R61, R356). -/

/-- The router entries of a tile for the scene with an input, live in a cycle. -/
def State.streamsAt (s : State) (p : Paddock) (t : TileId) (inp cycle : Nat) : List Nat :=
  let T := s.tile t
  if p.nscene * p.nent = 0 then []
  else
    let base := T.scene.toNat % p.nscene * p.nent
    ((tab p.nent fun k => (Sparse.get 0 T.mem.router (base + k)).toNat)).filter fun e =>
      fld e 59 5 != 0 && fld e 56 3 == inp && fld e 40 16 ≤ cycle && cycle < fld e 40 16 + fld e 24 16

/-- The tile across a link: 0 north, 1 east, 2 south, 3 west (R56). -/
def across (t : TileId) (d : Nat) : TileId :=
  let c := t.val % 24
  let r := t.val / 24
  if d = 0 then tileOf ((r + 15) % 16 * 24 + c)
  else if d = 1 then tileOf (r * 24 + (c + 1) % 24)
  else if d = 2 then tileOf ((r + 1) % 16 * 24 + c)
  else tileOf (r * 24 + (c + 23) % 24)

/-- How a flit ends at a router: it is taken by every output that its entries name, or at a link that no entry or no open
link takes it through (R61, R198) it is dropped, or a route conflict has stopped the router (R28, R325). -/
inductive FlitEnd where
  | through | dropped | stopped
deriving DecidableEq, Repr

/-- The outputs of a router entry: output number and its bit of omask, local delivery first. -/
def routerOutputs : List (Nat × Nat) := [(4, 63), (0, 62), (1, 61), (2, 60), (3, 59)]

/-- A flit at one output of its router, under entry e: written into the wing bank at once, or at the next router in the next
cycle (R356). At the local port of a tile whose valid bit is clear it is dropped, for which R61 names no fault: its copy
goes on as if it had been written (log 112). -/
def State.routeOut (p : Paddock) (f : Flit) (e : Nat) (acc : State × FlitEnd) (d : Nat × Nat) : State × FlitEnd :=
  let s := acc.1
  let t := p.tile f.rank
  if !bit e d.2 || acc.2 == .stopped then acc
  else if (s.net t).used.contains (f.rank, d.1, f.cycle) then
    ((s.modNet t fun n => { n with dead := n.dead ++ [f.rank] }).unitFault t none 0x23, .stopped)
  else
    let s := s.modNet t fun n => { n with used := n.used ++ [(f.rank, d.1, f.cycle)] }
    if d.1 = 4 && !(s.tile t).mem.bnd.valid then (s, acc.2)
    else if d.1 = 4 then (s.modMem t fun m => m.wingWrite ((fld e 14 10 + (f.cycle - fld e 40 16)) * 128) f.data, acc.2)
    else if !(s.tile t).mem.bnd.gate.getLsbD (3 - d.1) then (s, .dropped)
    else
      let next : Flit := { f with rank := s.rank (across t d.1), inp := (d.1 + 2) % 4 + 1, cycle := f.cycle + 1 }
      (s.modNet t fun n => { n with flits := n.flits ++ [next] }, acc.2)

/-- What the end of a flit at a router means for its copy: one dropped abandons it with the route fault (R198), one that a
stopped router holds up holds its queue (R325), and the copy completes in the cycle in which its last flit is written
(R356). -/
def State.endFlit (s : State) (p : Paddock) (f : Flit) (how : FlitEnd) : State :=
  let t := p.tile f.src
  match (s.tile t).queue f.q with
  | [] => s
  | e :: _ =>
    if e.serial ≠ f.serial then s
    else
      match how, e.work with
      | .dropped, _ => (s.popCopy t f.q).unitFault t (some e.ctx) 0x22
      | .stopped, _ => s.modHead t f.q fun e => { e with held := true }
      | .through, .copy r =>
        if r.len ≤ e.off && !((s.net t).flits.any fun x => x.src == f.src && x.q == f.q && x.serial == f.serial) then
          (s.modHead t f.q fun e => { e with done := true }).completeCopy t f.q
        else s
      | .through, _ => s

/-- A flit taken at its router (R27, R61, R356). -/
def State.takeFlit (s : State) (p : Paddock) (f : Flit) : State :=
  let t := p.tile f.rank
  let s := s.modNet t fun n => { n with flits := n.flits.erase f }
  let es := s.streamsAt p t f.inp f.cycle
  let r :=
    if (s.net t).dead.contains f.rank then (s, FlitEnd.stopped)
    else if es.isEmpty then (s, .dropped)
    else es.foldl (fun acc e => routerOutputs.foldl (State.routeOut p f e) acc) (s, .through)
  r.1.endFlit p f r.2

/-- The flits of a queue of a rank that are due at their routers are taken: the cycle of the scene is the same in every tile,
and the rank that sent them counts it for them (R356; log 111). The fuel bounds them. -/
def State.moveFlits (p : Paddock) (src : Nat) (q : Fin 4) : Nat → State → State
  | 0, s => s
  | n + 1, s =>
    match (s.net (p.tile src)).flits.find? fun f =>
        f.src = src && f.q = q && f.cycle ≤ (s.tile (p.tile src)).sceneCycle with
    | none => s
    | some f => State.moveFlits p src q n (s.takeFlit p f)

/-- The next flit of a dir-2 copy injected, in the cycle that its place in the copy gives it (R198, R356). It has no
fragment of memory to stop at for data in error: it stops at the flit (log 121). -/
def State.injectNext (s : State) (p : Paddock) (t : TileId) (q : Fin 4) (e : CopyEntry) (r : CopyRec) : State :=
  let T := s.tile t
  let src := r.swin.addrs ((r.src + e.off : Nat) : Int) 128
  if T.mem.spadBad src then (s.modHead t q fun e => { e with begun := false }).stopCopy t q e 7 e.off
  else
    (s.modHead t q fun e => { e with off := e.off + 128, begun := true }).takeFlit p
      ⟨s.rank t, 0, T.sceneCycle, readAll T.mem.spad src, s.rank t, q, e.serial⟩

/-- DIR2_INJECT (R198, R356): the flits of a queue that are due are taken at their routers, and from its starting cycle on
the head of the queue injects a flit a cycle. A starting cycle that a sequencer has strided past 16 bits is taken modulo
2^16 (log 35). -/
def execDir2Inject (t : TileId) (q : Fin 4) (s : State) : Out :=
  .next (
    match (s.tile t).pad.bind s.pad? with
    | none => s
    | some p =>
      let s := State.moveFlits p (s.rank t) q 1024 s
      let T := s.tile t
      match T.head? q with
      | none => s
      | some e =>
        match e.work with
        | .copy r =>
          if r.dir ≠ 2 ∨ e.done ∨ r.len ≤ e.off ∨ T.sceneCycle ≠ r.dst % 2 ^ 16 + e.off / 128 ∨
              (!e.begun && T.sceneCycle < e.entered) then s
          else s.injectNext p t q e r
        | _ => s)

/-! Sequencers (R170, R200, R201). -/

/-- The indices of the next emission, from level 0 upward; none after the last. -/
def nextIndex : List Nat → List Nat → Option (List Nat)
  | i :: is, n :: ns =>
    if i + 1 < n then some ((i + 1) :: is) else (nextIndex is ns).map fun r => 0 :: r
  | _, _ => none

/-- A base with the strides of a nest added, as a 64-bit address. -/
def strided (base : Nat) (shift : Int) (idx : List Nat) (stride : List Int) : Nat :=
  wrap 64 ((base : Int) + shift + (List.zipWith (fun (i : Nat) (d : Int) => (i : Int) * d) idx stride).foldl (· + ·) 0)

/-- The copy at the indices (R170, R200): the shift goes to the destination for dir 1 and 5, else to the source. -/
def SeqRec.copyAt (r : SeqRec) (u : SeqRun) : CopyRec :=
  let toDst := r.copy.dir == 1 || r.copy.dir == 5
  { r.copy with
    src := strided r.copy.src (if toDst then 0 else u.shift) u.idx r.sstride,
    dst := strided r.copy.dst (if toDst then u.shift else 0) u.idx r.dstride }

/-- SEQUENCER_EMIT (R170): the condition bit of an outer iteration is consumed when it begins, a false one skips
it; otherwise one copy is emitted. A full tile, an absent bit and a curtain make it pause. -/
def execSequencerEmit (t : TileId) (k : Fin 4) (s : State) : Out :=
  let T := s.tile t
  let z := T.seqs[k]
  .next (
    match z.record, z.run with
    | some r, some u =>
      if T.stopReq || 128 ≤ T.copies then s
      else
        let i5 := u.idx.getD 5 0
        let needBit := r.skew != 0 && r.skew ≤ i5 && u.used ≤ i5 - r.skew && (u.idx.take 5).all (· == 0)
        let put (z : Sequencer) (s : State) : State := s.modTile t fun T => { T with seqs := T.seqs.set k z }
        let emit (z : Sequencer) (u : SeqRun) : State :=
          let run := (nextIndex u.idx r.counts).map fun i => { u with idx := i }
          (put { z with run := run } s).modTile t fun T =>
            { T.modQueue k fun l => l ++ [CopyEntry.new T.serial u.ctx (.copy (r.copyAt u)) T.sceneCycle] with
              serial := T.serial + 1 }
        if needBit then
          match z.bits with
          | [] => s
          | b :: rest =>
            let u := { u with used := u.used + 1 }
            if b then emit { z with bits := rest } u
            else
              let run := if i5 + 1 < r.counts.getD 5 1 then some { u with idx := [0, 0, 0, 0, 0, i5 + 1] } else none
              put { z with bits := rest, run := run } s
        else emit z u
    | _, _ => s)

end Sys2Proof.Machine
end

