-- ==== Sys2Proof/Machine/Scalar.lean ====
section
/-!
DEFINITION. The I class (06_scalar_and_control.md, R131 to R143): integer arithmetic, wide immediates, bit fields,
compares, selects, predicates and scalar floating point.
-/
namespace Sys2Proof.Machine

/-- The low w bits of an x value, unsigned (A and B of R131). -/
def lowU (t : Ty) (v : Word) : Nat := v.toNat % 2 ^ t.bits
/-- The low w bits, signed (sA and sB of R131). -/
def lowS (t : Ty) (v : Word) : Int := sext t.bits v.toNat

/-- A result cut to w bits and sign-extended (Ext S of R131). -/
def extS (t : Ty) (r : Int) : Word := toWord (sext t.bits (wrap t.bits r))
/-- A result cut to w bits and zero-extended (Ext Z of R131). -/
def extZ (t : Ty) (r : Int) : Word := BitVec.ofNat 64 (wrap t.bits r)

/-- The immediate of the J forms: B := Bits(SExt(imm, 36), w − 1, 0) (R131). -/
def immWord (imm : BitVec 36) : Word := imm.signExtend 64

/-- The shift amount k := B mod w (R131). -/
def shiftBy (t : Ty) (b : Word) : Nat := lowU t b % t.bits

/-! The res column of R131, with its extension. -/

def iAdd (t : Ty) (a b : Word) : Word := extS t (lowS t a + lowS t b)
def iSub (t : Ty) (a b : Word) : Word := extS t (lowS t a - lowS t b)
def iMul (t : Ty) (a b : Word) : Word := extS t (lowS t a * lowS t b)
def iMulh (t : Ty) (a b : Word) : Word := extS t (lowS t a * lowS t b / (2 ^ t.bits : Nat))
def iMulhu (t : Ty) (a b : Word) : Word := extZ t ((lowU t a * lowU t b / 2 ^ t.bits : Nat) : Int)
def iAnd (t : Ty) (a b : Word) : Word := extS t (lowU t (a &&& b) : Nat)
def iOr (t : Ty) (a b : Word) : Word := extS t (lowU t (a ||| b) : Nat)
def iXor (t : Ty) (a b : Word) : Word := extS t (lowU t (a ^^^ b) : Nat)
def iShl (t : Ty) (a : Word) (k : Nat) : Word := extS t ((lowU t a * 2 ^ k : Nat) : Int)
def iShr (t : Ty) (a : Word) (k : Nat) : Word := extZ t ((lowU t a / 2 ^ k : Nat) : Int)
def iSar (t : Ty) (a : Word) (k : Nat) : Word := extS t (lowS t a / (2 ^ k : Nat))
def iClz (t : Ty) (a : Word) : Word := extZ t ((t.bits - bitLength (lowU t a) : Nat) : Int)
def iCtz (t : Ty) (a : Word) : Word := extZ t (trailingZeros t.bits (lowU t a) : Nat)
def iPopc (t : Ty) (a : Word) : Word := extZ t (popCount t.bits (lowU t a) : Nat)
def iMin (t : Ty) (a b : Word) : Word := extS t (if lowS t a ≤ lowS t b then lowS t a else lowS t b)
def iMax (t : Ty) (a b : Word) : Word := extS t (if lowS t a ≤ lowS t b then lowS t b else lowS t a)
def iMinu (t : Ty) (a b : Word) : Word := extZ t ((Nat.min (lowU t a) (lowU t b) : Nat) : Int)
def iMaxu (t : Ty) (a b : Word) : Word := extZ t ((Nat.max (lowU t a) (lowU t b) : Nat) : Int)

/-! Division (R132): toward zero, the remainder with the sign of the dividend, and the two corners. -/

def iDiv (t : Ty) (a b : Word) : Word :=
  extS t (if lowU t b = 0 then -1
    else if lowS t a = -(2 ^ (t.bits - 1) : Nat) ∧ lowS t b = -1 then -(2 ^ (t.bits - 1) : Nat)
    else Int.tdiv (lowS t a) (lowS t b))
def iRem (t : Ty) (a b : Word) : Word :=
  extS t (if lowU t b = 0 then lowS t a
    else if lowS t a = -(2 ^ (t.bits - 1) : Nat) ∧ lowS t b = -1 then 0
    else Int.tmod (lowS t a) (lowS t b))
def iDivu (t : Ty) (a b : Word) : Word :=
  extZ t (if lowU t b = 0 then (2 ^ t.bits : Nat) - 1 else ((lowU t a / lowU t b : Nat) : Int))
def iRemu (t : Ty) (a b : Word) : Word :=
  extZ t (if lowU t b = 0 then (lowU t a : Int) else ((lowU t a % lowU t b : Nat) : Int))

/-- The condition of CMP and CMPI (R136). -/
def iCond (t : Ty) (c : ICond) (a b : Word) : Bool :=
  match c with
  | .eq => lowU t a == lowU t b
  | .ne => lowU t a != lowU t b
  | .lt => decide (lowS t a < lowS t b)
  | .ge => decide (lowS t b ≤ lowS t a)
  | .ltu => decide (lowU t a < lowU t b)
  | .geu => decide (lowU t b ≤ lowU t a)

/-- Divider latency of the integer operations (R128). -/
def divLat : Ty → Nat
  | .i64 => 20 | .i32 => 12 | .i16 => 8 | .i8 => 8 | .f32 => 12 | .bf16 => 8 | .f16 => 8

/-- An x result of latency L (R128). -/
def State.xOut (s : State) (d : Fin 32) (v : Word) (lat : Nat := 1) : State := s.result (.x d v) 0 .scalar lat
/-- A predicate result of latency L (R128). -/
def State.pOut (s : State) (d : Fin 16) (b : Bool) (lat : Nat := 1) : State := s.result (.p d b) 0 .scalar lat
/-- A result of the divider (R128). -/
def State.divOut (s : State) (d : Fin 32) (v : Word) (t : Ty) : State := s.result (.x d v) 0 .scalar (divLat t) true


/-- ADD (R131). -/
def execAdd (g : Guard) (t : Ty) (d : Fin 32) (a : Src) (b : Src) : State → Out :=
  syllable (.add g t d a b) fun s => s.xOut d (iAdd t (s.X 1 a) (s.X 2 b)) 1

/-- ADDI (R131, R133). -/
def execAddi (g : Guard) (t : Ty) (d : Fin 32) (a : Src) (imm : BitVec 36) : State → Out :=
  syllable (.addi g t d a imm) fun s => s.xOut d (iAdd t (s.X 1 a) (immWord imm)) 1

/-- SUB (R131). -/
def execSub (g : Guard) (t : Ty) (d : Fin 32) (a : Src) (b : Src) : State → Out :=
  syllable (.sub g t d a b) fun s => s.xOut d (iSub t (s.X 1 a) (s.X 2 b)) 1

/-- MUL (R131). -/
def execMul (g : Guard) (t : Ty) (d : Fin 32) (a : Src) (b : Src) : State → Out :=
  syllable (.mul g t d a b) fun s => s.xOut d (iMul t (s.X 1 a) (s.X 2 b)) 3

/-- MULH (R131). -/
def execMulh (g : Guard) (t : Ty) (d : Fin 32) (a : Src) (b : Src) : State → Out :=
  syllable (.mulh g t d a b) fun s => s.xOut d (iMulh t (s.X 1 a) (s.X 2 b)) 3

/-- MULHU (R131). -/
def execMulhu (g : Guard) (t : Ty) (d : Fin 32) (a : Src) (b : Src) : State → Out :=
  syllable (.mulhu g t d a b) fun s => s.xOut d (iMulhu t (s.X 1 a) (s.X 2 b)) 3

/-- DIV (R132). -/
def execDiv (g : Guard) (t : Ty) (d : Fin 32) (a : Src) (b : Src) : State → Out :=
  syllable (.div g t d a b) fun s => s.divOut d (iDiv t (s.X 1 a) (s.X 2 b)) t

/-- DIVU (R132). -/
def execDivu (g : Guard) (t : Ty) (d : Fin 32) (a : Src) (b : Src) : State → Out :=
  syllable (.divu g t d a b) fun s => s.divOut d (iDivu t (s.X 1 a) (s.X 2 b)) t

/-- REM (R132). -/
def execRem (g : Guard) (t : Ty) (d : Fin 32) (a : Src) (b : Src) : State → Out :=
  syllable (.rem g t d a b) fun s => s.divOut d (iRem t (s.X 1 a) (s.X 2 b)) t

/-- REMU (R132). -/
def execRemu (g : Guard) (t : Ty) (d : Fin 32) (a : Src) (b : Src) : State → Out :=
  syllable (.remu g t d a b) fun s => s.divOut d (iRemu t (s.X 1 a) (s.X 2 b)) t

/-- AND (R131). -/
def execAnd (g : Guard) (t : Ty) (d : Fin 32) (a : Src) (b : Src) : State → Out :=
  syllable (.and g t d a b) fun s => s.xOut d (iAnd t (s.X 1 a) (s.X 2 b)) 1

/-- ANDI (R131, R133). -/
def execAndi (g : Guard) (t : Ty) (d : Fin 32) (a : Src) (imm : BitVec 36) : State → Out :=
  syllable (.andi g t d a imm) fun s => s.xOut d (iAnd t (s.X 1 a) (immWord imm)) 1

/-- OR (R131). -/
def execOr (g : Guard) (t : Ty) (d : Fin 32) (a : Src) (b : Src) : State → Out :=
  syllable (.or g t d a b) fun s => s.xOut d (iOr t (s.X 1 a) (s.X 2 b)) 1

/-- ORI (R131, R133). -/
def execOri (g : Guard) (t : Ty) (d : Fin 32) (a : Src) (imm : BitVec 36) : State → Out :=
  syllable (.ori g t d a imm) fun s => s.xOut d (iOr t (s.X 1 a) (immWord imm)) 1

/-- XOR (R131). -/
def execXor (g : Guard) (t : Ty) (d : Fin 32) (a : Src) (b : Src) : State → Out :=
  syllable (.xor g t d a b) fun s => s.xOut d (iXor t (s.X 1 a) (s.X 2 b)) 1

/-- XORI (R131, R133). -/
def execXori (g : Guard) (t : Ty) (d : Fin 32) (a : Src) (imm : BitVec 36) : State → Out :=
  syllable (.xori g t d a imm) fun s => s.xOut d (iXor t (s.X 1 a) (immWord imm)) 1

/-- SHL (R131). -/
def execShl (g : Guard) (t : Ty) (d : Fin 32) (a : Src) (b : Src) : State → Out :=
  syllable (.shl g t d a b) fun s => s.xOut d (iShl t (s.X 1 a) (shiftBy t (s.X 2 b))) 1

/-- SHLI (R131, R133). -/
def execShli (g : Guard) (t : Ty) (d : Fin 32) (a : Src) (imm : BitVec 36) : State → Out :=
  syllable (.shli g t d a imm) fun s => s.xOut d (iShl t (s.X 1 a) imm.toNat) 1

/-- SHR (R131). -/
def execShr (g : Guard) (t : Ty) (d : Fin 32) (a : Src) (b : Src) : State → Out :=
  syllable (.shr g t d a b) fun s => s.xOut d (iShr t (s.X 1 a) (shiftBy t (s.X 2 b))) 1

/-- SHRI (R131, R133). -/
def execShri (g : Guard) (t : Ty) (d : Fin 32) (a : Src) (imm : BitVec 36) : State → Out :=
  syllable (.shri g t d a imm) fun s => s.xOut d (iShr t (s.X 1 a) imm.toNat) 1

/-- SAR (R131). -/
def execSar (g : Guard) (t : Ty) (d : Fin 32) (a : Src) (b : Src) : State → Out :=
  syllable (.sar g t d a b) fun s => s.xOut d (iSar t (s.X 1 a) (shiftBy t (s.X 2 b))) 1

/-- SARI (R131, R133). -/
def execSari (g : Guard) (t : Ty) (d : Fin 32) (a : Src) (imm : BitVec 36) : State → Out :=
  syllable (.sari g t d a imm) fun s => s.xOut d (iSar t (s.X 1 a) imm.toNat) 1

/-- CLZ (R131). -/
def execClz (g : Guard) (t : Ty) (d : Fin 32) (a : Src) : State → Out :=
  syllable (.clz g t d a) fun s => s.xOut d (iClz t (s.X 1 a))

/-- CTZ (R131). -/
def execCtz (g : Guard) (t : Ty) (d : Fin 32) (a : Src) : State → Out :=
  syllable (.ctz g t d a) fun s => s.xOut d (iCtz t (s.X 1 a))

/-- POPC (R131). -/
def execPopc (g : Guard) (t : Ty) (d : Fin 32) (a : Src) : State → Out :=
  syllable (.popc g t d a) fun s => s.xOut d (iPopc t (s.X 1 a))

/-- MIN (R131). -/
def execMin (g : Guard) (t : Ty) (d : Fin 32) (a : Src) (b : Src) : State → Out :=
  syllable (.min g t d a b) fun s => s.xOut d (iMin t (s.X 1 a) (s.X 2 b)) 1

/-- MAX (R131). -/
def execMax (g : Guard) (t : Ty) (d : Fin 32) (a : Src) (b : Src) : State → Out :=
  syllable (.max g t d a b) fun s => s.xOut d (iMax t (s.X 1 a) (s.X 2 b)) 1

/-- MINU (R131). -/
def execMinu (g : Guard) (t : Ty) (d : Fin 32) (a : Src) (b : Src) : State → Out :=
  syllable (.minu g t d a b) fun s => s.xOut d (iMinu t (s.X 1 a) (s.X 2 b)) 1

/-- MAXU (R131). -/
def execMaxu (g : Guard) (t : Ty) (d : Fin 32) (a : Src) (b : Src) : State → Out :=
  syllable (.maxu g t d a b) fun s => s.xOut d (iMaxu t (s.X 1 a) (s.X 2 b)) 1

/-- SEL (R137). -/
def execSel (g : Guard) (d : Fin 32) (a : Src) (b : Src) (c : Fin 16) : State → Out :=
  syllable (.sel g d a b c) fun s => s.xOut d (if s.P c then s.X 1 a else s.X 2 b)

/-- CMP (R136). -/
def execCmp (g : Guard) (t : Ty) (d : Fin 16) (a : Src) (b : Src) (cond : ICond) : State → Out :=
  syllable (.cmp g t d a b cond) fun s => s.pOut d (iCond t cond (s.X 1 a) (s.X 2 b))

/-- CMPI (R136). -/
def execCmpi (g : Guard) (t : Ty) (d : Fin 16) (a : Src) (cond : ICond) (imm : BitVec 32) : State → Out :=
  syllable (.cmpi g t d a cond imm) fun s => s.pOut d (iCond t cond (s.X 1 a) (imm.signExtend 64))

/-- MOVW (R134). -/
def execMovw (g : Guard) (d : Fin 32) (imm : BitVec 42) : State → Out :=
  syllable (.movw g d imm) fun s => s.xOut d (imm.signExtend 64)

/-- MOVHI (R134): bits 41..0 of xd are kept. -/
def execMovhi (g : Guard) (d : Fin 32) (imm : BitVec 22) : State → Out :=
  syllable (.movhi g d imm) fun s =>
    s.xOut d (BitVec.ofNat 64 (imm.toNat * 2 ^ 42 + (s.bank.xr d).toNat % 2 ^ 42))

/-- EXTB (R135). -/
def execExtb (g : Guard) (d : Fin 32) (a : Src) (pos : BitVec 6) (len1 : BitVec 6) (sign : Bool) : State → Out :=
  syllable (.extb g d a pos len1 sign) fun s =>
    let f := fld (s.X 1 a).toNat pos.toNat (len1.toNat + 1)
    s.xOut d (if sign then toWord (sext (len1.toNat + 1) f) else BitVec.ofNat 64 f)

/-- INSB (R135). -/
def execInsb (g : Guard) (d : Fin 32) (a : Src) (pos : BitVec 6) (len1 : BitVec 6) : State → Out :=
  syllable (.insb g d a pos len1) fun s =>
    s.xOut d (BitVec.ofNat 64 (setFld (s.bank.xr d).toNat pos.toNat (len1.toNat + 1) (s.X 1 a).toNat))

/-! Scalar floating point (R139 to R143). -/

/-- An operand of a type: the low 32 or 16 bits (R139). -/
def fArg (t : Ty) (v : Word) : Val := (tyFmt t).decode (lowU t v)

/-- A float result: upper bits zero, flags to fp.sst when it lands (R139, R141). -/
def State.fOut (s : State) (d : Fin 32) (r : Nat × Flags) (lat : Nat) (div : Bool := false) : State :=
  s.result (.x d (BitVec.ofNat 64 r.1)) r.2 .scalar lat div

/-- FADD (R140). -/
def execFadd (g : Guard) (t : Ty) (d : Fin 32) (a : Src) (b : Src) (rm : Rm) : State → Out :=
  syllable (.fadd g t d a b rm) fun s =>
    s.fOut d ((tyFmt t).finish rm (vAdd rm (fArg t (s.X 1 a)) (fArg t (s.X 2 b)))) 4

/-- FSUB (R140). -/
def execFsub (g : Guard) (t : Ty) (d : Fin 32) (a : Src) (b : Src) (rm : Rm) : State → Out :=
  syllable (.fsub g t d a b rm) fun s =>
    s.fOut d ((tyFmt t).finish rm (vAdd rm (fArg t (s.X 1 a)) (fArg t (s.X 2 b)).neg)) 4

/-- FMUL (R140). -/
def execFmul (g : Guard) (t : Ty) (d : Fin 32) (a : Src) (b : Src) (rm : Rm) : State → Out :=
  syllable (.fmul g t d a b rm) fun s =>
    s.fOut d ((tyFmt t).finish rm (vMul (fArg t (s.X 1 a)) (fArg t (s.X 2 b)))) 4

/-- FFMA (R140): one rounding. -/
def execFfma (g : Guard) (t : Ty) (d : Fin 32) (a : Src) (b : Src) (c : Src) (rm : Rm) : State → Out :=
  syllable (.ffma g t d a b c rm) fun s =>
    s.fOut d ((tyFmt t).finish rm (vFma rm (fArg t (s.X 1 a)) (fArg t (s.X 2 b)) (fArg t (s.X 3 c)))) 4

/-- FDIV (R140). -/
def execFdiv (g : Guard) (t : Ty) (d : Fin 32) (a : Src) (b : Src) (rm : Rm) : State → Out :=
  syllable (.fdiv g t d a b rm) fun s =>
    s.fOut d ((tyFmt t).div rm (fArg t (s.X 1 a)) (fArg t (s.X 2 b))) (divLat t) true

/-- FSQRT (R140). -/
def execFsqrt (g : Guard) (t : Ty) (d : Fin 32) (a : Src) (rm : Rm) : State → Out :=
  syllable (.fsqrt g t d a rm) fun s => s.fOut d ((tyFmt t).sqrt rm (fArg t (s.X 1 a))) (divLat t) true

/-- The conversion of R142: `t` destination, `frm` source, `u` the integer side unsigned. -/
def fcvtOf (t frm : Ty) (u : Bool) (rm : Rm) (v : Word) : Word × Flags :=
  let x := if frm.isInt then Val.ofInt (if u then (lowU frm v : Int) else lowS frm v) else fArg frm v
  if t.isInt then
    let r := intEncode t.bits u rm x
    ((if u then extZ t r.1 else extS t r.1), r.2)
  else
    let r := (tyFmt t).ofVal rm false x
    (BitVec.ofNat 64 r.1, r.2)

/-- FCVT (R142). -/
def execFcvt (g : Guard) (t : Ty) (d : Fin 32) (a : Src) (rm : Rm) (frm : Ty) (u : Bool) : State → Out :=
  syllable (.fcvt g t d a rm frm u) fun s =>
    let r := fcvtOf t frm u rm (s.X 1 a)
    s.result (.x d r.1) r.2 .scalar 2

/-- The conditions of FCMP with the invalid flag (R143). -/
def fCond (c : FCond) (a b : Val) : Bool × Flags :=
  let sig := Flags.when (a.isSig || b.isSig) Flags.nv
  let any := Flags.when (a.isNan || b.isNan) Flags.nv
  match c with
  | .eq => (a.eqv b, sig)
  | .lt => (!a.isNan && !b.isNan && a.lt b, any)
  | .le => (!a.isNan && !b.isNan && !b.lt a, any)
  | .un => (a.isNan || b.isNan, sig)
  | .ne => (!a.eqv b, sig)

/-- FCMP (R143). -/
def execFcmp (g : Guard) (t : Ty) (d : Fin 16) (a : Src) (b : Src) (cond : FCond) : State → Out :=
  syllable (.fcmp g t d a b cond) fun s =>
    let r := fCond cond (fArg t (s.X 1 a)) (fArg t (s.X 2 b))
    s.result (.p d r.1) r.2 .scalar 2

/-- PLOG (R138). -/
def execPlog (g : Guard) (d : Fin 16) (a : Fin 16) (b : Fin 16) (f : BitVec 4) : State → Out :=
  syllable (.plog g d a b f) fun s => s.pOut d (f.getLsbD (2 * (s.P a).toNat + (s.P b).toNat))

/-- PMOV (R138). -/
def execPmov (g : Guard) (f : PmovForm) : State → Out :=
  syllable (.pmov g f) fun s =>
    match f with
    | .fx d a => s.pOut d (s.X 1 a != 0)
    | .tx d a => s.xOut d (if s.P a then 1 else 0)
    | .pp d a => s.pOut d (s.P a)

end Sys2Proof.Machine
end

