-- ==== Sys2Proof/Machine/Vector.lean ====
section
/-!
DEFINITION. The V class (10_vector.md, R226 to R249): lane arithmetic, masks, conversions, quantisation,
approximate functions, reductions, scans, permutes and partitions.
-/
namespace Sys2Proof.Machine

/-! Lanes (R223, R226). -/

/-- The lanes of a vector, as bit patterns. -/
def lanesOf (t : Ty) (v : VReg) : List Nat := elemsOf t.bits t.lanes v.toNat

/-- A lane read signed, or unsigned (`u`). -/
def laneInt (t : Ty) (u : Bool) (x : Nat) : Int := if u then (x : Int) else sext t.bits x

/-- A lane of a mask is set when its top bit is (R227). -/
def laneSet (t : Ty) (x : Nat) : Bool := bit x (t.bits - 1)

/-- The vector of lane patterns with the OR of their flags. -/
def packLanes (t : Ty) (l : List (Nat × Flags)) : VReg × Flags :=
  (BitVec.ofNat 2048 (packElems t.bits (l.map (·.1))), Flags.join (l.map (·.2)))

/-- A v result with its flags, after a latency (R229). -/
def State.lanesOut (s : State) (d : Fin 32) (r : VReg × Flags) (lat : Nat) : State :=
  s.result (.v d r.1) r.2 .vector lat

/-- An integer or a float latency (R231). -/
def laneLat (t : Ty) (i f : Nat) : Nat := if t.isInt then i else f

/-- One lane of VADD to VFMS (R232): the integer result, or the float result before its rounding. -/
def laneOp (t : Ty) (rm : Rm) (sat u : Bool) (int : Int) (flt : Val × Flags) : Nat × Flags :=
  if t.isInt then intOut t.bits sat u int else (tyFmt t).finish rm flt

def lane2 (t : Ty) (f : Nat → Nat → Nat × Flags) (a b : VReg) : VReg × Flags :=
  packLanes t (List.zipWith f (lanesOf t a) (lanesOf t b))

def lane3 (t : Ty) (f : Nat → Nat → Nat → Nat × Flags) (a b c : VReg) : VReg × Flags :=
  packLanes t (List.zipWith (fun p z => f p.1 p.2 z) ((lanesOf t a).zip (lanesOf t b)) (lanesOf t c))

def lane1 (t : Ty) (f : Nat → Nat × Flags) (a : VReg) : VReg × Flags := packLanes t ((lanesOf t a).map f)

/-- A float lane's value. -/
def laneVal (t : Ty) (x : Nat) : Val := (tyFmt t).decode x

/-- VADD of a lane (R232). -/
def vAddLane (t : Ty) (rm : Rm) (sat u : Bool) (x y : Nat) : Nat × Flags :=
  laneOp t rm sat u (laneInt t u x + laneInt t u y) (vAdd rm (laneVal t x) (laneVal t y))

/-- VSUB of a lane (R232). -/
def vSubLane (t : Ty) (rm : Rm) (sat u : Bool) (x y : Nat) : Nat × Flags :=
  laneOp t rm sat u (laneInt t u x - laneInt t u y) (vAdd rm (laneVal t x) (laneVal t y).neg)

/-- VMUL of a lane (R232). -/
def vMulLane (t : Ty) (rm : Rm) (sat u : Bool) (x y : Nat) : Nat × Flags :=
  laneOp t rm sat u (laneInt t u x * laneInt t u y) (vMul (laneVal t x) (laneVal t y))

/-- VFMA of a lane (R232). -/
def vFmaLane (t : Ty) (rm : Rm) (sat u : Bool) (x y z : Nat) : Nat × Flags :=
  laneOp t rm sat u (laneInt t u x * laneInt t u y + laneInt t u z) (vFma rm (laneVal t x) (laneVal t y) (laneVal t z))

/-- VFMS of a lane (R232). -/
def vFmsLane (t : Ty) (rm : Rm) (sat u : Bool) (x y z : Nat) : Nat × Flags :=
  laneOp t rm sat u (laneInt t u x * laneInt t u y - laneInt t u z)
    (vFma rm (laneVal t x) (laneVal t y) (laneVal t z).neg)

/-- VMIN or VMAX of a lane (R233). -/
def pickLane (t : Ty) (max u : Bool) (x y : Nat) : Nat × Flags :=
  if t.isInt then
    (if decide (laneInt t u x < laneInt t u y) == max then y else x, 0)
  else pickFloat (tyFmt t) max x y

/-- VCLAMP of a lane (R233): the upper bound wins. -/
def clampLane (t : Ty) (u : Bool) (x lo hi : Nat) : Nat × Flags :=
  let r := pickLane t true u x lo
  let q := pickLane t false u r.1 hi
  (q.1, r.2 ||| q.2)

/-- VADD (R232). -/
def execVadd (g : Guard) (t : Ty) (d : Fin 32) (a : Src) (b : Src) (rm : Rm) (sat : Bool) (u : Bool) : State → Out :=
  syllable (.vadd g t d a b rm sat u) fun s =>
    s.lanesOut d (lane2 t (vAddLane t rm sat u) (s.V 1 a) (s.V 2 b)) (laneLat t 2 4)

/-- VSUB (R232). -/
def execVsub (g : Guard) (t : Ty) (d : Fin 32) (a : Src) (b : Src) (rm : Rm) (sat : Bool) (u : Bool) : State → Out :=
  syllable (.vsub g t d a b rm sat u) fun s =>
    s.lanesOut d (lane2 t (vSubLane t rm sat u) (s.V 1 a) (s.V 2 b)) (laneLat t 2 4)

/-- VMUL (R232). -/
def execVmul (g : Guard) (t : Ty) (d : Fin 32) (a : Src) (b : Src) (rm : Rm) (sat : Bool) (u : Bool) : State → Out :=
  syllable (.vmul g t d a b rm sat u) fun s =>
    s.lanesOut d (lane2 t (vMulLane t rm sat u) (s.V 1 a) (s.V 2 b)) 4

/-- VFMA (R232). -/
def execVfma (g : Guard) (t : Ty) (d : Fin 32) (a : Src) (b : Src) (c : Src) (rm : Rm) (sat : Bool) (u : Bool) :
    State → Out :=
  syllable (.vfma g t d a b c rm sat u) fun s =>
    s.lanesOut d (lane3 t (vFmaLane t rm sat u) (s.V 1 a) (s.V 2 b) (s.V 3 c)) 4

/-- VFMS (R232). -/
def execVfms (g : Guard) (t : Ty) (d : Fin 32) (a : Src) (b : Src) (c : Src) (rm : Rm) (sat : Bool) (u : Bool) :
    State → Out :=
  syllable (.vfms g t d a b c rm sat u) fun s =>
    s.lanesOut d (lane3 t (vFmsLane t rm sat u) (s.V 1 a) (s.V 2 b) (s.V 3 c)) 4

/-- VMULH (R232). -/
def execVmulh (g : Guard) (t : Ty) (d : Fin 32) (a : Src) (b : Src) (u : Bool) : State → Out :=
  syllable (.vmulh g t d a b u) fun s =>
    s.lanesOut d
      (lane2 t (fun x y => (wrap t.bits (laneInt t u x * laneInt t u y / (2 ^ t.bits : Nat)), 0)) (s.V 1 a) (s.V 2 b)) 4

/-- VMIN (R233). -/
def execVmin (g : Guard) (t : Ty) (d : Fin 32) (a : Src) (b : Src) (u : Bool) : State → Out :=
  syllable (.vmin g t d a b u) fun s => s.lanesOut d (lane2 t (pickLane t false u) (s.V 1 a) (s.V 2 b)) 2

/-- VMAX (R233). -/
def execVmax (g : Guard) (t : Ty) (d : Fin 32) (a : Src) (b : Src) (u : Bool) : State → Out :=
  syllable (.vmax g t d a b u) fun s => s.lanesOut d (lane2 t (pickLane t true u) (s.V 1 a) (s.V 2 b)) 2

/-- VCLAMP (R233). -/
def execVclamp (g : Guard) (t : Ty) (d : Fin 32) (a : Src) (b : Src) (c : Src) (u : Bool) : State → Out :=
  syllable (.vclamp g t d a b c u) fun s => s.lanesOut d (lane3 t (clampLane t u) (s.V 1 a) (s.V 2 b) (s.V 3 c)) 2

/-- VABS of a lane (R234). -/
def absLane (t : Ty) (sat : Bool) (x : Nat) : Nat × Flags :=
  if t.isInt then intOut t.bits sat false ((sext t.bits x).natAbs : Nat) else (x % 2 ^ (t.bits - 1), 0)

/-- VNEG of a lane (R234). -/
def negLane (t : Ty) (sat : Bool) (x : Nat) : Nat × Flags :=
  if t.isInt then intOut t.bits sat false (-(sext t.bits x))
  else ((x + 2 ^ (t.bits - 1)) % 2 ^ t.bits, 0)

/-- VABS (R234). -/
def execVabs (g : Guard) (t : Ty) (d : Fin 32) (a : Src) (sat : Bool) : State → Out :=
  syllable (.vabs g t d a sat) fun s => s.lanesOut d (lane1 t (absLane t sat) (s.V 1 a)) 2

/-- VNEG (R234). -/
def execVneg (g : Guard) (t : Ty) (d : Fin 32) (a : Src) (sat : Bool) : State → Out :=
  syllable (.vneg g t d a sat) fun s => s.lanesOut d (lane1 t (negLane t sat) (s.V 1 a)) 2

/-! Logic and shifts (R235). -/

/-- VAND (R235). -/
def execVand (g : Guard) (t : Ty) (d : Fin 32) (a : Src) (b : Src) : State → Out :=
  syllable (.vand g t d a b) fun s => s.lanesOut d (s.V 1 a &&& s.V 2 b, 0) 2

/-- VOR (R235). -/
def execVor (g : Guard) (t : Ty) (d : Fin 32) (a : Src) (b : Src) : State → Out :=
  syllable (.vor g t d a b) fun s => s.lanesOut d (s.V 1 a ||| s.V 2 b, 0) 2

/-- VXOR (R235). -/
def execVxor (g : Guard) (t : Ty) (d : Fin 32) (a : Src) (b : Src) : State → Out :=
  syllable (.vxor g t d a b) fun s => s.lanesOut d (s.V 1 a ^^^ s.V 2 b, 0) 2

/-- The counts of a shift, lane by lane (R235). -/
def State.shiftCounts (s : State) (t : Ty) : VShift → List Nat
  | .lanes b => (lanesOf t (s.V 2 b)).map (· % t.bits)
  | .imm k => List.replicate t.lanes k.toNat

/-- The lanes shifted by their counts. -/
def shiftLanes (t : Ty) (f : Nat → Nat → Nat) (a : VReg) (ks : List Nat) : VReg × Flags :=
  packLanes t (List.zipWith (fun x k => (f x k, 0)) (lanesOf t a) ks)

/-- VSHL (R235). -/
def execVshl (g : Guard) (t : Ty) (d : Fin 32) (a : Src) (k : VShift) : State → Out :=
  syllable (.vshl g t d a k) fun s =>
    s.lanesOut d (shiftLanes t (fun x k => x * 2 ^ k % 2 ^ t.bits) (s.V 1 a) (s.shiftCounts t k)) 2

/-- VSHR (R235). -/
def execVshr (g : Guard) (t : Ty) (d : Fin 32) (a : Src) (k : VShift) : State → Out :=
  syllable (.vshr g t d a k) fun s =>
    s.lanesOut d (shiftLanes t (fun x k => x / 2 ^ k) (s.V 1 a) (s.shiftCounts t k)) 2

/-- VSAR (R235). -/
def execVsar (g : Guard) (t : Ty) (d : Fin 32) (a : Src) (k : VShift) : State → Out :=
  syllable (.vsar g t d a k) fun s =>
    s.lanesOut d
      (shiftLanes t (fun x k => wrap t.bits (sext t.bits x / (2 ^ k : Nat))) (s.V 1 a) (s.shiftCounts t k)) 2

/-! Compares, selects and masks (R236 to R238). -/

/-- A condition code read as a condition of R136. -/
def intCond : VCond → ICond
  | .c0 => .eq | .c1 => .ne | .c2 => .lt | .c3 => .ge | .c4 => .ltu | .c5 => .geu

/-- A condition code read as a condition of R143; code 5 is none on float lanes. -/
def floatCond : VCond → FCond
  | .c0 => .eq | .c1 => .lt | .c2 => .le | .c3 => .un | .c4 => .ne | .c5 => .ne

/-- All ones or all zeros (R227). -/
def maskLane (t : Ty) (b : Bool) : Nat := if b then 2 ^ t.bits - 1 else 0

/-- VCMP of a lane (R236). -/
def cmpLane (t : Ty) (c : VCond) (x y : Nat) : Nat × Flags :=
  if t.isInt then (maskLane t (iCond t (intCond c) (BitVec.ofNat 64 x) (BitVec.ofNat 64 y)), 0)
  else let r := fCond (floatCond c) (laneVal t x) (laneVal t y); (maskLane t r.1, r.2)

/-- VCMP (R236). -/
def execVcmp (g : Guard) (t : Ty) (d : Fin 32) (a : Src) (b : Src) (cond : VCond) : State → Out :=
  syllable (.vcmp g t d a b cond) fun s => s.lanesOut d (lane2 t (cmpLane t cond) (s.V 1 a) (s.V 2 b)) 2

/-- VSEL (R237). -/
def execVsel (g : Guard) (t : Ty) (d : Fin 32) (a : Src) (b : Src) (c : Src) : State → Out :=
  syllable (.vsel g t d a b c) fun s =>
    s.lanesOut d (lane3 t (fun x y m => (if laneSet t m then x else y, 0)) (s.V 1 a) (s.V 2 b) (s.V 3 c)) 2

/-- VMOVP (R238). -/
def execVmovp (g : Guard) (t : Ty) (f : VmovpForm) : State → Out :=
  syllable (.vmovp g t f) fun s =>
    match f with
    | .any d a => s.result (.p d ((lanesOf t (s.V 1 a)).any (laneSet t))) 0 .vector 2
    | .all d a => s.result (.p d ((lanesOf t (s.V 1 a)).all (laneSet t))) 0 .vector 2
    | .sp d a => s.lanesOut d (if s.P a then BitVec.allOnes 2048 else 0, 0) 2

/-- VPCNT (R238). -/
def execVpcnt (g : Guard) (t : Ty) (d : Fin 32) (a : Src) : State → Out :=
  syllable (.vpcnt g t d a) fun s =>
    s.result (.x d (BitVec.ofNat 64 ((lanesOf t (s.V 1 a)).filter (laneSet t)).length)) 0 .vector 4

/-! Conversions (R239 to R242). -/

/-- One side of VCVT: a lane type, or a packed format (R240). -/
inductive CvtSide where
  | lane (t : Ty)
  | packed (f : MFmt)
deriving DecidableEq, Repr

def CvtSide.bits : CvtSide → Nat
  | .lane t => t.bits
  | .packed f => f.bits

def CvtSide.count (c : CvtSide) : Nat := 2048 / c.bits

/-- The side of a type code and a format code: code 7 is packed (R240). -/
def cvtSide (t fmt : Nat) : CvtSide :=
  if t = 7 then .packed ((mfmt? fmt).getD .e4m3) else .lane ((ty? t).getD .i32)

def CvtSide.isInt : CvtSide → Bool
  | .lane t => t.isInt
  | .packed f => f.isInt

/-- Whether an integer side is unsigned: a packed format's signedness is its own (R240). -/
def CvtSide.unsigned (c : CvtSide) (u : Bool) : Bool :=
  match c with
  | .lane _ => u
  | .packed f => f == .u8 || f == .u4

/-- The value of an element of a side. -/
def CvtSide.value (c : CvtSide) (u : Bool) (x : Nat) : Val :=
  match c with
  | .lane t => tyDecode t u x
  | .packed f => mdecode f x

/-- One element converted (R240). -/
def cvtElem (dst src : CvtSide) (rm : Rm) (sat u : Bool) (x : Nat) : Nat × Flags :=
  let v := src.value u x
  if src.isInt && dst.isInt then intOut dst.bits sat (dst.unsigned u) v.smant
  else
    match dst with
    | .lane t => tyEncode t u rm v
    | .packed f => mencode f rm false v

/-- Elements `first` onward of a string of b-bit elements replaced by those of a list. -/
def replaceElems (b old first : Nat) (l : List Nat) : Nat := setFld old (b * first) (b * l.length) (packElems b l)

/-- A conversion of m elements: the side with more elements uses chunk `part` (R239). -/
def convert (db dn sb sn part : Nat) (old : VReg) (src : VReg) (f : Nat → Nat × Flags) : VReg × Flags :=
  let m := min dn sn
  let take := if m < sn then part * m else 0
  let first := if m < dn then part * m else 0
  let rs := (elemsOf sb m (src.toNat / 2 ^ (sb * take))).map f
  (BitVec.ofNat 2048 (replaceElems db old.toNat first (rs.map (·.1))), Flags.join (rs.map (·.2)))

/-- VCVT (R240). -/
def execVcvt (g : Guard) (t : BitVec 3) (d : Fin 32) (a : Src) (rm : Rm) (sat : Bool) (u : Bool) (frm : BitVec 3)
    (fmt : BitVec 5) (part : BitVec 4) : State → Out :=
  syllable (.vcvt g t d a rm sat u frm fmt part) fun s =>
    let dst := cvtSide t.toNat fmt.toNat
    let src := cvtSide frm.toNat fmt.toNat
    s.lanesOut d
      (convert dst.bits dst.count src.bits src.count part.toNat s.bank.v[d] (s.V 1 a) (cvtElem dst src rm sat u)) 4

/-- The blocks of 32 of a list, with fuel. -/
def blocks32 {α : Type} : Nat → List α → List (List α)
  | 0, _ => []
  | n + 1, l => l.take 32 :: blocks32 n (l.drop 32)

/-- VQUANT (R241). -/
def execVquant (g : Guard) (t : Ty) (d : Fin 32) (a : Src) (c : Fin 32) (rm : Rm) (fmt : MFmt) (part : BitVec 4) :
    State → Out :=
  syllable (.vquant g t d a c rm fmt part) fun s =>
    let bs := (blocks32 (t.lanes / 32) ((lanesOf t (s.V 1 a)).map (laneVal t))).map (quantBlock fmt rm)
    let codes := (bs.map fun b => b.2.1).flatten
    let v := replaceElems fmt.bits (s.bank.v[d]).toNat (part.toNat * t.lanes) codes
    (s.lanesOut d (BitVec.ofNat 2048 v, Flags.join (bs.map fun b => b.2.2)) 6).result
      (.x c (BitVec.ofNat 64 (packElems 8 (bs.map (·.1))))) 0 .vector 6

/-- One element of VDEQ under its scale byte (R242). -/
def deqElem (t : Ty) (rm : Rm) (f : MFmt) (c x : Nat) : Nat × Flags :=
  let v := mdecode f x
  if c = 0xFF ∨ v.isNan then ((tyFmt t).qnan, 0) else (tyFmt t).ofVal rm false (v.scale (c - 127))

/-- VDEQ (R242). -/
def execVdeq (g : Guard) (t : Ty) (d : Fin 32) (a : Src) (b : Src) (rm : Rm) (fmt : MFmt) (part : BitVec 4) :
    State → Out :=
  syllable (.vdeq g t d a b rm fmt part) fun s =>
    let n := t.lanes
    let es := elemsOf fmt.bits n ((s.V 1 a).toNat / 2 ^ (fmt.bits * (part.toNat * n)))
    let sc := (s.X 2 b).toNat
    s.lanesOut d (packLanes t ((es.zip (List.range n)).map fun p => deqElem t rm fmt (elem 8 sc (p.2 / 32)) p.1)) 6

/-! Approximate functions (R243, R244). -/

/-- The lanes of an approximate function. -/
def approxLanes (t : Ty) (fn : AFun) (full : Bool) (rm : Rm) (a : VReg) : VReg × Flags :=
  lane1 t (fun x => (tyFmt t).afun fn full rm (laneVal t x)) a

/-- Their latency (R231). -/
def approxLat (full : Bool) : Nat := if full then 14 else 8

/-- VRCP (R243). -/
def execVrcp (g : Guard) (t : Ty) (d : Fin 32) (a : Src) (rm : Rm) (full : Bool) : State → Out :=
  syllable (.vrcp g t d a rm full) fun s => s.lanesOut d (approxLanes t .rcp full rm (s.V 1 a)) (approxLat full)

/-- VRSQ (R243). -/
def execVrsq (g : Guard) (t : Ty) (d : Fin 32) (a : Src) (rm : Rm) (full : Bool) : State → Out :=
  syllable (.vrsq g t d a rm full) fun s => s.lanesOut d (approxLanes t .rsq full rm (s.V 1 a)) (approxLat full)

/-- VEXP2 (R243). -/
def execVexp2 (g : Guard) (t : Ty) (d : Fin 32) (a : Src) (rm : Rm) (full : Bool) : State → Out :=
  syllable (.vexp2 g t d a rm full) fun s => s.lanesOut d (approxLanes t .exp2 full rm (s.V 1 a)) (approxLat full)

/-- VLOG2 (R243). -/
def execVlog2 (g : Guard) (t : Ty) (d : Fin 32) (a : Src) (rm : Rm) (full : Bool) : State → Out :=
  syllable (.vlog2 g t d a rm full) fun s => s.lanesOut d (approxLanes t .log2 full rm (s.V 1 a)) (approxLat full)

/-! Reductions and scans (R245, R246). -/

/-- The exact sum of float values, rounded once to a format, with the rules of R245 for NaN, infinity and zero. -/
def sumTo (f : FFmt) (rm : Rm) (vs : List Val) : Nat × Flags :=
  let mixed := vs.contains (.inf false) && vs.contains (.inf true)
  if vs.any Val.isNan || mixed then (f.qnan, Flags.when (vs.any Val.isSig || mixed) Flags.nv)
  else
    match vs.find? Val.isInf with
    | some v => f.ofVal rm false v
    | none =>
      let s := exactSum vs
      if s.1 = 0 then (f.signed (vs.all fun v => v.isZero && v.sign) 0, 0)
      else f.ofVal rm false (.fin (s.1 < 0) s.1.natAbs s.2)

/-- VRSUM (R245): always a 32-bit result. -/
def rsum (t : Ty) (rm : Rm) (sat u : Bool) (ls : List Nat) : Nat × Flags :=
  if t.isInt then intOut 32 sat u ((ls.map (laneInt t u)).foldl (· + ·) 0)
  else sumTo fp32 rm (ls.map (laneVal t))

/-- The fold of VRMAX and VRMIN (R245). -/
def pickAll (t : Ty) (max u : Bool) : List Nat → Nat × Flags
  | [] => (0, 0)
  | x :: xs => xs.foldl (fun acc y => let r := pickLane t max u acc.1 y; (r.1, acc.2 ||| r.2)) (x, 0)

/-- One value in the low bytes, every other byte zero (R245). -/
def lowResult (r : Nat × Flags) : VReg × Flags := (BitVec.ofNat 2048 r.1, r.2)

/-- VRSUM (R245). -/
def execVrsum (g : Guard) (t : Ty) (d : Fin 32) (a : Src) (rm : Rm) (sat : Bool) (u : Bool) : State → Out :=
  syllable (.vrsum g t d a rm sat u) fun s => s.lanesOut d (lowResult (rsum t rm sat u (lanesOf t (s.V 1 a)))) 6

/-- VRMAX (R245). -/
def execVrmax (g : Guard) (t : Ty) (d : Fin 32) (a : Src) (u : Bool) : State → Out :=
  syllable (.vrmax g t d a u) fun s => s.lanesOut d (lowResult (pickAll t true u (lanesOf t (s.V 1 a)))) 6

/-- VRMIN (R245). -/
def execVrmin (g : Guard) (t : Ty) (d : Fin 32) (a : Src) (u : Bool) : State → Out :=
  syllable (.vrmin g t d a u) fun s => s.lanesOut d (lowResult (pickAll t false u (lanesOf t (s.V 1 a)))) 6

/-- One step of a scan (R246). -/
def scanOp (t : Ty) (o : ScanOp) (rm : Rm) (sat u : Bool) (y x : Nat) : Nat × Flags :=
  match o with
  | .add => vAddLane t rm sat u y x
  | .max => pickLane t true u y x
  | .min => pickLane t false u y x

/-- The prefixes after the first lane. -/
def scanFrom (f : Nat → Nat → Nat × Flags) : Nat → List Nat → List (Nat × Flags)
  | _, [] => []
  | y, x :: xs => let r := f y x; r :: scanFrom f r.1 xs

/-- The inclusive prefix of R246. -/
def scanAll (t : Ty) (o : ScanOp) (rm : Rm) (sat u : Bool) : List Nat → List (Nat × Flags)
  | [] => []
  | x :: xs =>
    let y : Nat × Flags := if o = .add ∧ t.isInt = false then (tyFmt t).ofVal rm false (laneVal t x) else (x, 0)
    y :: scanFrom (scanOp t o rm sat u) y.1 xs

/-- VSCAN (R246). -/
def execVscan (g : Guard) (t : Ty) (d : Fin 32) (a : Src) (rm : Rm) (sat : Bool) (u : Bool) (o : ScanOp) :
    State → Out :=
  syllable (.vscan g t d a rm sat u o) fun s =>
    s.lanesOut d (packLanes t (scanAll t o rm sat u (lanesOf t (s.V 1 a)))) 8

/-! Permutes and lane moves (R247). -/

/-- Lane patterns as a vector, no flags. -/
def ofLanes (t : Ty) (l : List Nat) : VReg × Flags := (BitVec.ofNat 2048 (packElems t.bits l), 0)

/-- VPERM (R247). -/
def execVperm (g : Guard) (t : Ty) (d : Fin 32) (a : Src) (b : Src) : State → Out :=
  syllable (.vperm g t d a b) fun s =>
    let ls := (s.V 1 a).toNat
    s.lanesOut d
      (ofLanes t ((lanesOf t (s.V 2 b)).map fun i => if i < t.lanes then elem t.bits ls i else 0)) 4

/-- VSPLAT (R247). -/
def execVsplat (g : Guard) (t : Ty) (d : Fin 32) (a : Src) : State → Out :=
  syllable (.vsplat g t d a) fun s => s.lanesOut d (ofLanes t (List.replicate t.lanes (lowU t (s.X 1 a)))) 2

/-- VINS (R247). -/
def execVins (g : Guard) (t : Ty) (d : Fin 32) (a : Src) (b : Src) : State → Out :=
  syllable (.vins g t d a b) fun s =>
    s.lanesOut d
      (BitVec.ofNat 2048 (replaceElems t.bits (s.bank.v[d]).toNat ((s.X 2 b).toNat % t.lanes) [lowU t (s.X 1 a)]), 0) 2

/-- VEXT (R247). -/
def execVext (g : Guard) (t : Ty) (d : Fin 32) (a : Src) (b : Src) (u : Bool) : State → Out :=
  syllable (.vext g t d a b u) fun s =>
    let x := elem t.bits (s.V 1 a).toNat ((s.X 2 b).toNat % t.lanes)
    s.result (.x d (if t.isInt && !u then toWord (sext t.bits x) else BitVec.ofNat 64 x)) 0 .vector 2

/-- VIOTA (R247). -/
def execViota (g : Guard) (t : Ty) (d : Fin 32) (a : Src) (b : Src) : State → Out :=
  syllable (.viota g t d a b) fun s =>
    s.lanesOut d (ofLanes t (tab t.lanes fun j => ((s.X 1 a).toNat + j * (s.X 2 b).toNat) % 2 ^ t.bits)) 2

/-! Partition, compress and expand (R248, R249). -/

/-- The lanes that hold the outcome, ascending (R248). -/
def equalLanes (ls : List Nat) (o : Nat) : List Nat := (List.range 64).filter fun j => ls.getD j 0 = o

/-- A list made up to n lanes with a filler. -/
def padLanes (n fill : Nat) (l : List Nat) : List Nat := l ++ List.replicate (n - l.length) fill

/-- VPART (R248). -/
def execVpart (g : Guard) (t : Ty) (d : Fin 32) (a : Src) (b : Src) (c : Fin 32) (arm : Bool) (sl : BitVec 4) :
    State → Out :=
  syllable (.vpart g t d a b c arm sl) fun s =>
    let ls := lanesOf .i32 (s.V 1 a)
    let o := (s.X 2 b).toNat % 2 ^ 32
    let eq := equalLanes ls o
    let out :=
      if arm then tab 64 fun j => if ls.getD j 0 = o then j * 2 ^ sl.toNat else 0x80000000
      else padLanes 64 0x80000000 (eq.map fun j => j * 2 ^ sl.toNat)
    (s.lanesOut d (ofLanes .i32 out) 4).result (.x c (BitVec.ofNat 64 eq.length)) 0 .vector 4

/-- VCOMP (R249). -/
def execVcomp (g : Guard) (t : Ty) (d : Fin 32) (a : Src) (b : Src) (c : Fin 32) : State → Out :=
  syllable (.vcomp g t d a b c) fun s =>
    let sel := (((lanesOf t (s.V 1 a)).zip (lanesOf t (s.V 2 b))).filter fun p => laneSet t p.2).map (·.1)
    (s.lanesOut d (ofLanes t (padLanes t.lanes 0 sel)) 4).result (.x c (BitVec.ofNat 64 sel.length)) 0 .vector 4

/-- The lanes of VEXPD: each set mask lane takes the next lane of the source (R249). -/
def expandLanes (t : Ty) : List Nat → List Nat → List Nat
  | [], _ => []
  | m :: ms, src => if laneSet t m then src.headD 0 :: expandLanes t ms src.tail else 0 :: expandLanes t ms src

/-- VEXPD (R249). -/
def execVexpd (g : Guard) (t : Ty) (d : Fin 32) (a : Src) (b : Src) : State → Out :=
  syllable (.vexpd g t d a b) fun s =>
    s.lanesOut d (ofLanes t (expandLanes t (lanesOf t (s.V 2 b)) (lanesOf t (s.V 1 a)))) 4

end Sys2Proof.Machine
end

