-- ==== Sys2Proof/Machine/Collect.lean ====
section
/-!
DEFINITION. The collective queue at work (R292), barriers (R295), their faults (R296), scenes (R298), reductions and
broadcasts (R300, R301), reduction windows (R302, R304).
-/
namespace Sys2Proof.Machine

/-! The queue e5 (R292). -/

/-- CNTADD entries at the head of e5 add and leave (R203, R292). The fuel bounds the entries. -/
def Tile.settle : Nat → Tile → Tile
  | 0, T => T
  | n + 1, T =>
    match T.e5 with
    | e :: r =>
      match e.work with
      | .add k v => if e.sent then Tile.settle n { T with mem := T.mem.addCounter k v, e5 := r } else T
      | _ => T
    | [] => T

/-- Entries of e5 complete and leave. -/
def State.endE5 (s : State) (t : TileId) (f : E5Entry → Bool) : State :=
  s.modTile t fun T => Tile.settle T.e5.length { T with e5 := T.e5.filter fun e => !f e }

/-- The condition of FENCE for an entry's own context, needed by BAR (R295); at system scope what nalloc stores made dirty
is written back as the entry is sent (R287). -/
def Tile.e5Ready (T : Tile) (e : E5Entry) : Bool :=
  match e.work with
  | .bar _ _ _ => !T.outstanding e.ctx e.upTo
  | _ => true

/-- E5_ENTRY_SEND (R292): the oldest entry not yet performed sends its arrival, contribution or request. -/
def execE5EntrySend (t : TileId) (s : State) : Out :=
  let T := s.tile t
  .next (
    match T.e5.find? fun e => !e.sent with
    | none => s
    | some e =>
      if T.fenced 5 e.serial || !T.e5Ready e then s
      else
        let s := s.modTile t fun T =>
          { T with e5 := T.e5.map fun x => if x.serial = e.serial then { x with sent := true } else x }
        let s := match e.work with | .bar _ .system _ => s.writeBacks T.mem.bnd.owner | _ => s
        let msg : NetMsg := ⟨s.rank t, e.serial, e.work⟩
        match e.work with
        | .bar _ _ _ => s.modNet t fun n => { n with arrivals := n.arrivals ++ [msg] }
        | .netred _ _ _ _ _ _ _ _ => s.modNet t fun n => { n with arrivals := n.arrivals ++ [msg] }
        | .netbc _ _ _ _ _ _ => s.modNet t fun n => { n with arrivals := n.arrivals ++ [msg] }
        | .scene =>
          s.modNet t fun n =>
            if n.scenes.any fun m => m.rank == s.rank t then n else { n with scenes := n.scenes ++ [⟨s.rank t, T.serial, .scene⟩] }
        | .redopen _ _ _ _ _ => s
        | .redclose _ _ => s
        | .add _ _ => s.endE5 t fun _ => false)

/-! Instances (R295, R296, R300, R301). -/

/-- A paddock's network changed. -/
def State.modPadNet (s : State) (p : Nat) (f : PadNet → PadNet) : State := s.modPad p fun k => { k with net := f k.net }

def State.padNet (s : State) (p : Nat) : PadNet := ((s.pad? p).map (·.net)).getD PadNet.empty

/-- The instance an entry belongs to. -/
def netKey : E5Work → Option NetKey
  | .bar id _ _ => some (.bar id)
  | .netred g _ _ _ _ _ _ _ => some (.red g)
  | .netbc g _ _ _ _ _ => some (.bc g)
  | _ => none

def netOpcode : NetKey → Nat
  | .bar _ => 0x0C
  | .red _ => 0x0E
  | .bc _ => 0x0F

/-- How an entry disagrees with the first of its instance (R296). -/
def disagrees (a b : E5Work) : Option Nat :=
  match a, b with
  | .bar _ sc m, .bar _ sc' m' => if sc = sc' ∧ m = m' then none else some 4
  | .netred _ t o u sat _ _ n, .netred _ t' o' u' sat' _ _ n' =>
    if n ≠ n' then some 1 else if t = t' ∧ o = o' ∧ u = u' ∧ sat = sat' then none else some 2
  | .netbc _ t _ _ r n, .netbc _ t' _ _ r' n' =>
    if n ≠ n' then some 1 else if t ≠ t' then some 2 else if r ≠ r' then some 3 else none
  | _, _ => none

/-- The participant count of an entry; a barrier's is not counted in entries. -/
def netCount : E5Work → Option Nat
  | .netred _ _ _ _ _ _ _ n => some n
  | .netbc _ _ _ _ _ n => some n
  | _ => none

/-- The collective fault of one entry (R296): its record, and the entry discarded. -/
def State.failEntry (s : State) (p : Nat) (key : NetKey) (cause : Nat) (m : NetMsg) : State :=
  let t := s.rankTile p m.rank
  match (s.tile t).e5.find? fun e => e.serial = m.serial with
  | none => s
  | some e =>
    (s.sendRecord t e.ctx 0x12 (netOpcode key + 256 * cause) 0 none (some m.serial)).endE5 t fun x => x.serial == m.serial

def Gathered.full (g : Gathered) : Bool :=
  match g.entries with
  | m :: _ => match netCount m.work with | some n => n ≤ g.entries.length | none => false
  | [] => false

/-- A NETBC instance with all its entries and none from the root (R296). -/
def Gathered.rootless (g : Gathered) : Bool :=
  g.full && match g.entries with
    | m :: _ => match m.work with
      | .netbc _ _ _ _ root _ => !(g.entries.any fun x => x.rank == root)
      | _ => false
    | [] => false

/-- The first open instance of a key, with an entry added; a full one takes none. -/
def addEntry (key : NetKey) (m : NetMsg) : List Gathered → List Gathered
  | [] => [⟨key, [m]⟩]
  | g :: r => if g.key = key ∧ !g.full then { g with entries := g.entries ++ [m] } :: r else g :: addEntry key m r

/-- An entry reaches the rank 0 tile (R295, R296, R300, R301). -/
def State.gather (s : State) (p k : Nat) (want : NetKey → Bool) : State :=
  match (s.padNet p).arrivals[k]? with
  | none => s
  | some m =>
    match netKey m.work with
    | none => s
    | some key =>
      if !want key || !s.standing p then s
      else
        let s := s.modPadNet p fun n => { n with arrivals := n.arrivals.eraseIdx k }
        let open_ := (s.padNet p).gathered.find? fun g => g.key = key && !g.full
        match open_.bind fun g => g.entries.head?.bind fun f => (disagrees f.work m.work).map fun c => (g, c) with
        | some (g, c) =>
          let s := s.modPadNet p fun n => { n with gathered := n.gathered.erase g }
          (g.entries ++ [m]).foldl (fun s e => s.failEntry p key c e) s
        | none =>
          let s := s.modPadNet p fun n => { n with gathered := addEntry key m n.gathered }
          match (s.padNet p).gathered.find? Gathered.rootless with
          | some g =>
            g.entries.foldl (fun s e => s.failEntry p key 3 e) (s.modPadNet p fun n => { n with gathered := n.gathered.erase g })
          | none => s

def NetKey.isBar : NetKey → Bool
  | .bar _ => true | .red _ => false | .bc _ => false
def NetKey.isRed : NetKey → Bool
  | .bar _ => false | .red _ => true | .bc _ => false
def NetKey.isBc : NetKey → Bool
  | .bar _ => false | .red _ => false | .bc _ => true

/-- BAR_ARRIVAL (R295): the k-th message on its way to rank 0. -/
def execBarArrival (p k : Nat) (s : State) : Out := .next (s.gather p k NetKey.isBar)

/-- NETRED_CONTRIBUTION (R300). -/
def execNetredContribution (p k : Nat) (s : State) : Out := .next (s.gather p k NetKey.isRed)

/-- NETBC_CONTRIBUTION (R301). -/
def execNetbcContribution (p k : Nat) (s : State) : Out := .next (s.gather p k NetKey.isBc)

/-- The entries of an instance complete (R292). -/
def State.endEntries (s : State) (p : Nat) (g : Gathered) : State :=
  g.entries.foldl (fun s m => s.endE5 (s.rankTile p m.rank) fun e => e.serial == m.serial)
    (s.modPadNet p fun n => { n with gathered := n.gathered.erase g })

/-- BAR_COMPLETION (R295): every participant has arrived, and no arrival of the id is still on its way. -/
def execBarCompletion (p : Nat) (id : Fin 4) (s : State) : Out :=
  let n := s.padNet p
  .next (
    match (if s.standing p then n.gathered.find? fun g => g.key = .bar id else none) with
    | none => s
    | some g =>
      match g.entries.head?.map NetMsg.work with
      | some (E5Work.bar _ _ smask) =>
        let all := (s.padTiles p).all fun t => !(s.tile t).inStages smask || g.entries.any fun m => m.rank == s.rank t
        if all && !(n.arrivals.any fun m => netKey m.work == some (.bar id)) then s.endEntries p g else s
      | _ => s)

/-- The lanes of a reduction (R300): exact sums rounded once, or the selection of R233. -/
def reduceLanes (t : Ty) (o : ScanOp) (u sat : Bool) (vs : List VReg) : VReg × Flags :=
  match vs with
  | [v] => (v, 0)
  | _ =>
    packLanes t (tab t.lanes fun j =>
      let ls := vs.map fun v => elem t.bits v.toNat j
      match o with
      | .add =>
        if t.isInt then intOut t.bits sat u ((ls.map (laneInt t u)).foldl (· + ·) 0)
        else sumTo (tyFmt t) .rne (ls.map (laneVal t))
      | .max => pickAll t true u ls
      | .min => pickAll t false u ls)

def netredOf : E5Work → Option (Ty × ScanOp × Bool × Bool × Fin 32 × VReg)
  | .netred _ t o u sat d v _ => some (t, o, u, sat, d, v)
  | _ => none

/-- A result written to the context of an entry. -/
def State.landAt (s : State) (p : Nat) (m : NetMsg) (w : RegWrite) (fl : Flags) : State :=
  let t := s.rankTile p m.rank
  match (s.tile t).e5.find? fun e => e.serial = m.serial with
  | none => s
  | some e => s.modCtx (.ctx t e.ctx) fun c => c.land ⟨w, fl, .vector, 0, false, none⟩

/-- NETRED_RESULT (R300): a full instance writes every participant's vd. -/
def execNetredResult (p : Nat) (grp : Fin 8) (s : State) : Out :=
  .next (
    match (s.padNet p).gathered.find? fun g => g.key = .red grp && g.full && s.standing p with
    | none => s
    | some g =>
      match g.entries.head?.bind fun m => netredOf m.work with
      | none => s
      | some (t, o, u, sat, _, _) =>
        let r := reduceLanes t o u sat (g.entries.filterMap fun m => (netredOf m.work).map fun x => x.2.2.2.2.2)
        let s := g.entries.foldl (fun s m =>
          match netredOf m.work with
          | some x => s.landAt p m (.v x.2.2.2.2.1 r.1) r.2
          | none => s) s
        s.endEntries p g)

def netbcOf : E5Work → Option (Fin 32 × VReg × Nat)
  | .netbc _ _ d v root _ => some (d, v, root)
  | _ => none

/-- NETBC_RESULT (R301): every participant's vd receives the root's vector. -/
def execNetbcResult (p : Nat) (grp : Fin 8) (s : State) : Out :=
  .next (
    match (s.padNet p).gathered.find? fun g => g.key = .bc grp && g.full && s.standing p with
    | none => s
    | some g =>
      match g.entries.findSome? fun m => (netbcOf m.work).bind fun x => if m.rank = x.2.2 then some x.2.1 else none with
      | none => s
      | some v =>
        let s := g.entries.foldl (fun s m =>
          match netbcOf m.work with
          | some x => s.landAt p m (.v x.1 v) 0
          | none => s) s
        s.endEntries p g)

/-! Reduction windows (R302, R304). -/

/-- The leaves of the pages of a range. -/
def MemSys.leaves (m : MemSys) (o : OwnerTag) (va len : Nat) : List (Option (Nat × Nat)) :=
  (List.range ((va + len - 1) / 2 ^ 16 + 1 - va / 2 ^ 16)).map fun k =>
    match m.walk o ((va / 2 ^ 16 + k) * 2 ^ 16) with
    | .leaf e large _ => some (e, leafPa e large ((va / 2 ^ 16 + k) * 2 ^ 16) / 2 ^ 16)
    | _ => none

/-- Accumulator storage of a window in bytes (R302). -/
def RedWindow.storage (w : RedWindow) : Nat := if w.bf then 8 * w.len else 4 * w.len

/-- Two windows meet in a physical line (R302). -/
def RedWindow.meets (a b : RedWindow) : Bool :=
  (List.range (a.len / 128)).any fun k =>
    let va := a.va + 128 * k
    let pa := a.pages.getD (va / 2 ^ 16 - a.va / 2 ^ 16) 0 * 2 ^ 16 + va % 2 ^ 16
    (b.offset pa).isSome

/-- The status of a REDOPEN, and the window if it opens (R302). A converted page is backed: its window lies on its late frame
(R80). -/
def MemSys.openWindow (m : MemSys) (o : OwnerTag) (va len : Nat) (bf : Bool) (bexp : Int) : Nat × MemSys :=
  let ls := m.leaves o va len
  if 2 ^ 55 < va + len ∨ ls.any fun l => match l with | some (e, _) => !(bit e 2 && bit e 3) | none => true then (2, m)
  else if ls.any fun l => match l with | some (_, f) => m.place (m.eff (f * 2 ^ 16)) != .device | none => true then (3, m)
  else
    let w : RedWindow := ⟨o, va, len, bf, bexp, ls.map fun l => match l with | some (_, f) => m.eff (f * 2 ^ 16) / 2 ^ 16 | none => 0, [], false⟩
    if m.wins.any (fun x => w.meets x) ∨ 8 ≤ (m.wins.filter fun x => x.owner = o).length ∨
        2 ^ 24 < (m.wins.map RedWindow.storage).sum + w.storage then (1, m)
    else (0, { m with wins := m.wins ++ [w] })

/-- The status of an e5 entry lands, and the entry completes. -/
def State.endStatus (s : State) (t : TileId) (e : E5Entry) (d : Fin 32) (v : Nat) : State :=
  (s.modCtx (.ctx t e.ctx) fun c => c.land ⟨.x d (BitVec.ofNat 64 v), 0, .scalar, 0, false, none⟩).endE5 t fun x =>
    x.serial == e.serial

/-- WINDOW_OPEN (R302). -/
def execWindowOpen (t : TileId) (id : Nat) (s : State) : Out :=
  let T := s.tile t
  .next (
    match T.e5.find? fun e => e.serial = id && e.sent with
    | none => s
    | some e =>
      match e.work with
      | .redopen d va len bf b =>
        let r := s.mem.openWindow T.mem.bnd.owner va len bf b
        State.endStatus { s with mem := r.2 } t e d r.1
      | _ => s)

/-- A window's elements written as plain writes (R304). -/
def MemSys.closeWindow (m : MemSys) (w : RedWindow) : MemSys :=
  let m := { m with wins := m.wins.filter fun x => !(x.owner = w.owner && x.va = w.va) }
  (List.range (w.len / w.esz)).foldl (fun m i =>
    let va := w.va + i * w.esz
    m.write (w.pages.getD (va / 2 ^ 16 - w.va / 2 ^ 16) 0 * 2 ^ 16 + va % 2 ^ 16) (bytesOf w.esz (w.value i))) m

/-- WINDOW_CLOSE (R304). -/
def execWindowClose (t : TileId) (id : Nat) (s : State) : Out :=
  let T := s.tile t
  .next (
    match T.e5.find? fun e => e.serial = id && e.sent with
    | none => s
    | some e =>
      match e.work with
      | .redclose d va =>
        match s.mem.wins.find? fun w => w.owner = T.mem.bnd.owner && w.va = va with
        | none => s.endStatus t e d 2
        | some w =>
          let lines := (List.range (w.len / 128)).map fun k =>
            let a := w.va + 128 * k
            w.pages.getD (a / 2 ^ 16 - w.va / 2 ^ 16) 0 * 2 ^ 16 + a % 2 ^ 16
          let s := lines.foldl (fun s pa => s.withMem (s.mem.backInv pa)) s
          State.endStatus { s with mem := s.mem.closeWindow w } t e d w.ovf.toNat
      | _ => s)

/-! Scenes (R297, R298). -/

def CopyWork.isDir (w : CopyWork) (d : Nat) : Bool :=
  match w with
  | .copy r => r.dir == d
  | _ => false

/-- A tile has counted as many cycles of the scene as rank 0: the cycle is one for the paddock (R298, R356; log 111). -/
def State.inStep (s : State) (p : Nat) (t : TileId) : Bool := (s.tile t).sceneCycle == (s.tile (s.rankTile p 0)).sceneCycle

/-- The conditions of a swap, which comes in one cycle at every tile (R298). -/
def State.mayswap (s : State) (p : Nat) : Bool :=
  let n := s.padNet p
  s.allArrived p n && n.flits.isEmpty && (s.padTiles p).all (s.inStep p) &&
  (s.padTiles p).all fun t =>
    (s.tile t).queues.toList.all fun l => l.all fun e =>
      !((e.work.isDir 2 || e.work.isDir 4) && e.begun && !e.done) &&
      !(e.work.isDir 3 && n.scenes.any fun m => m.rank == s.rank t && e.serial < m.serial)

/-- The swap at one tile (R298). -/
def Tile.swap (T : Tile) : Tile :=
  let T := { T with
    mem := { T.mem with stage1 := !T.mem.stage1 }, scene := T.scene + 1, sceneCycle := 0,
    queues := T.queues.map fun l => l.map fun (e : CopyEntry) => { e with entered := 0 },
    e5 := T.e5.filter fun e => !(e.sent && e.work == .scene) }
  Tile.settle T.e5.length T

/-- The swap in a paddock (R298). -/
def State.swapScene (s : State) (p : Nat) : State :=
  (s.padTiles p).foldl (fun s t => s.modTile t Tile.swap) (s.modPadNet p fun n => { n with scenes := [], used := [] })

/-- SCENE_SWAP (R298); cycle 0 of the new scene injects what starts in it (R356). -/
def execSceneSwap (p : Nat) (s : State) : Out :=
  .next (if s.standing p && s.mayswap p then (s.padTiles p).foldl State.inject (s.swapScene p) else s)

end Sys2Proof.Machine
end

