-- ==== Sys2Proof/Machine/Prompter.lean ====
section
/-!
DEFINITION. The prompter (R17 to R22, R115, R118 to R122): states of nodes and edges, decisions, dispatch,
condition words and tokens.
-/
namespace Sys2Proof.Machine

/-! Node and edge records (R17, R18). -/

def GNode.kind (n : GNode) : Nat := fld n.w0.toNat 60 4
def GNode.cmask (n : GNode) : Nat := fld n.w0.toNat 56 4
def GNode.dsrc (n : GNode) : Bool := bit n.w0.toNat 55
def GNode.cword (n : GNode) : Fin 64 := Fin.ofNat 64 (fld n.w0.toNat 49 6)
def GNode.cbit (n : GNode) : Nat := fld n.w0.toNat 44 5
def GNode.entry (n : GNode) : Nat := fld n.w0.toNat 30 14
def GNode.smask (n : GNode) : Nat := fld n.w0.toNat 14 16
def GNode.blen (n : GNode) : Nat := fld n.w0.toNat 6 8
def GNode.first (n : GNode) : Nat := fld n.w1.toNat 0 16
def GNode.edges (n : GNode) : Nat := fld n.w1.toNat 16 8

def GEdge.from_ (e : GEdge) : Nat := fld e.rec_.toNat 24 8
def GEdge.order (e : GEdge) : Bool := fld e.rec_.toNat 22 2 == 0
def GEdge.dependence (e : GEdge) : Bool := fld e.rec_.toNat 22 2 == 1
def GEdge.pol (e : GEdge) : Bool := bit e.rec_.toNat 21

/-- The incoming edges of a node, with their numbers. -/
def Prompter.incoming (pr : Prompter) (n : GNode) : List (Nat × GEdge) :=
  (List.range n.edges).filterMap fun k => (pr.edges[n.first + k]?).map fun e => (n.first + k, e)

def Prompter.orderIn (pr : Prompter) (n : GNode) : List (Nat × GEdge) := (pr.incoming n).filter fun p => p.2.order

/-- The node an edge belongs to. -/
def Prompter.targetOf (pr : Prompter) (k : Nat) : Option Nat :=
  (List.range pr.nodes.length).find? fun j =>
    match pr.nodes[j]? with
    | some n => n.first ≤ k && k < n.first + n.edges
    | none => false

/-- The order edges out of a node decided (`f` of polarity and number; none leaves the edge undecided). -/
def Prompter.decide (pr : Prompter) (j : Nat) (f : Nat → Bool → Option Bool) : Prompter :=
  { pr with edges := (pr.edges.zip (List.range pr.edges.length)).map fun p =>
      if p.1.from_ = j && p.1.order then
        match f p.2 p.1.pol with
        | some true => { p.1 with st := .live }
        | some false => { p.1 with st := .dead }
        | none => p.1
      else p.1 }

def Prompter.setNode (pr : Prompter) (j : Nat) (f : GNode → GNode) : Prompter := { pr with nodes := setAt pr.nodes j f }

/-- The waiting edits installed, in the order of their packets (R23). -/
def GNode.install (n : GNode) : GNode :=
  n.edit.foldl (fun n e => { n with w0 := e.2.1, w1 := e.2.2.1, w2 := e.2.2.2 }) { n with edit := [] }

/-! Transitions (R19 to R21). -/

/-- A node completes: its edges are live. -/
def Prompter.complete (pr : Prompter) (j : Nat) : Prompter :=
  (pr.setNode j fun n => { n with st := .complete, ended := false }).decide j fun _ _ => some true

/-- A node is skipped: none of its edges is live. -/
def Prompter.skip (pr : Prompter) (j : Nat) : Prompter :=
  (pr.setNode j fun n => { n with st := .skipped }).decide j fun _ _ => some false

/-- A conditional node's outcome (R19, R21): `only` is the edge that a TOKEN named. -/
def Prompter.decideCond (pr : Prompter) (j : Nat) (v : Bool) (only : Option Nat) : Prompter :=
  (pr.setNode j fun n => { n with st := .complete, dec := none }).decide j fun k pol =>
    match only with
    | some e => some (e == k)
    | none => some (pol == v)

/-- A while node's outcome (R20, R21). -/
def Prompter.decideWhile (pr : Prompter) (j : Nat) (v : Bool) (only : Option Nat) : Prompter :=
  (pr.setNode j fun n => { n with st := .complete, dec := none, again := v }).decide j fun k pol =>
    let liveOne := match only with | some e => e == k | none => true
    if v then (if pol then some liveOne else none)
    else if pol then some false else some liveOne

/-- A node becomes ready, and reads its condition bit in that cycle (R121). An edit takes effect where it leaves
pending, not where a while node is ready again (R23). -/
def Prompter.ready (pr : Prompter) (j : Nat) : Prompter :=
  pr.setNode j fun n =>
    let n := if n.st = .pending then n.install else n
    let b := (pr.cond[n.cword]).getLsbD n.cbit
    { n with st := .ready, dec := if (n.kind = 1 || n.kind = 2) && !n.dsrc then some b else none }

/-- The edge of a TOKEN's successor among the node's order edges (R21). Where two order edges of the node lead to that
successor, the rule does not say which one the TOKEN names: the first in the edge array is taken (log 77). -/
def Prompter.tokenEdge (pr : Prompter) (j target : Nat) : Option Nat :=
  (pr.nodes[target]?).bind fun n => ((pr.orderIn n).find? fun p => p.2.from_ = j).map (·.1)

/-- The oldest token that names a node, and the queue without it (R122). -/
def takeToken (j : Nat) : List (Nat × Nat) → Option (Nat × List (Nat × Nat))
  | [] => none
  | (n, v) :: r =>
    if n = j then some (v, r) else (takeToken j r).map fun p => (p.1, (n, v) :: p.2)

/-- The body of a while node is over (R20). -/
def Prompter.bodyOver (pr : Prompter) (j : Nat) (n : GNode) : Bool :=
  (List.range n.blen).all fun k =>
    match pr.nodes[j + 1 + k]? with
    | some b => (b.st == .complete && !(b.kind == 2 && b.again)) || b.st == .skipped
    | none => true

/-- A while node's body returns to pending, its own edges of polarity 1 and the body's edges to undecided, and the
node becomes ready again (R20). -/
def Prompter.repeat_ (pr : Prompter) (j : Nat) (n : GNode) : Prompter :=
  let inBody (k : Nat) : Bool := j < k && k ≤ j + n.blen
  let nodes := (pr.nodes.zip (List.range pr.nodes.length)).map fun (p : GNode × Nat) =>
    if inBody p.2 then { p.1.install with st := .pending, dec := none, again := false, ended := false } else p.1
  let edges := pr.edges.map fun (e : GEdge) =>
    if e.order && (inBody e.from_ || (e.from_ == j && e.pol)) then { e with st := .undecided } else e
  Prompter.ready { pr with nodes := nodes, edges := edges } j

/-- Whether a task's condition words are all applied (R121). -/
def condwDone (net : PadNet) (rank : Nat) (j : Nat) : Bool := !(net.condw.any fun m => m.rank == rank && m.node == j)

/-- What one node's state makes due (R19 to R21), judged on the prompter as it stood, applied to the one being built.
Answers also how many token-target faults have arisen, one for each TOKEN (R21). -/
def Prompter.due (old : Prompter) (net : PadNet) (rank : Nat) (stage : Nat) (acc : Prompter × Nat) (j : Nat) :
    Prompter × Nat :=
  let (pr, flt) := acc
  match old.nodes[j]? with
  | none => (pr, flt)
  | some n =>
    let part := bit n.smask stage
    match n.st with
    | .pending =>
      let es := old.orderIn n
      if es.isEmpty then (pr.ready j, flt)
      else if es.any fun p => p.2.st == .undecided then (pr, flt)
      else if es.any fun p => p.2.st == .live then (pr.ready j, flt)
      else ((pr.setNode j GNode.install).skip j, flt)
    | .ready =>
      if n.kind = 0 then (if part then pr else pr.complete j, flt)
      else if n.kind = 3 then (pr.complete j, flt)
      else if n.dsrc then
        match takeToken j pr.tokens with
        | none => (pr, flt)
        | some (target, rest) =>
          let pr := { pr with tokens := rest }
          if !part then (pr.skip j, flt)
          else
            match old.tokenEdge j target with
            | none => (pr, flt + 1)
            | some e =>
              if n.kind = 1 then (pr.decideCond j true (some e), flt)
              else (pr.decideWhile j (((old.edges[e]?).map (·.pol)).getD true) (some e), flt)
      else if !part then (pr.skip j, flt)
      else if n.kind = 1 then (pr.decideCond j (n.dec.getD false) none, flt)
      else (pr.decideWhile j (n.dec.getD false) none, flt)
    | .running => (if n.ended && condwDone net rank j then pr.complete j else pr, flt)
    | .complete => (if n.kind = 2 && n.again && old.bodyOver j n then pr.repeat_ j n else pr, flt)
    | .skipped => (pr, flt)

/-- Every change that is due (R118). -/
def Prompter.step (pr : Prompter) (net : PadNet) (rank : Nat) (stage : Nat) : Prompter × Nat :=
  (List.range pr.nodes.length).foldl (pr.due net rank stage) (pr, 0)

/-! Dispatch (R118 to R120). -/

/-- The lowest idle context of a mask. -/
def Tile.idleIn (T : Tile) (mask : Nat) : Option (Fin 4) :=
  ([0, 1, 2, 3] : List (Fin 4)).find? fun c => bit mask c.val && (T.ctx c).sel == .idle && (T.ctx c).flight.isEmpty

/-- The node to dispatch, with its context (R118). -/
def Tile.candidate (T : Tile) : Option (Nat × GNode × Fin 4) :=
  (T.pr.nodes.zip (List.range T.pr.nodes.length)).findSome? fun p =>
    if p.1.st == .ready && p.1.kind == 0 && bit p.1.smask T.stage.toNat then
      (T.idleIn p.1.cmask).map fun c => (p.2, p.1, c)
    else none

/-- The lowest-numbered dependence source that is not complete or skipped (R120). -/
def Prompter.failing (pr : Prompter) (n : GNode) : Option Nat :=
  let bad := ((pr.incoming n).filter fun p => p.2.dependence).filterMap fun p =>
    match pr.nodes[p.2.from_]? with
    | some s => if s.st == .complete || s.st == .skipped then none else some p.2.from_
    | none => none
  bad.foldl (fun m k => match m with | none => some k | some x => some (min x k)) none

/-- What dispatch sets (R115, R119); no bundle transferred to the first one, so its from index is open (log 5). -/
def Ctx.dispatch (c : Ctx) (k : Nat) (n : GNode) (from_ : Word) : Ctx :=
  { c with
    pc := n.entry, src := from_.toNat % 2 ^ 14, arg := n.w2, node := BitVec.ofNat 8 k, sel := .ready,
    bank := { c.bank with s := 0, loops := [] } }

/-- PROMPTER_CYCLE (R118): due changes, then at most one dispatch; a curtain and a dependence violation stop
dispatch. -/
def execPrompterCycle (t : TileId) (s : State) : Out :=
  let T := s.tile t
  let (pr, flt) := T.pr.step (s.net t) (s.rank t) T.stage.toNat
  let s := s.modTile t fun T => { T with pr := pr }
  let s := (List.range flt).foldl (fun s _ => s.unitFault t none 0x25) s
  let T := s.tile t
  .next (
    if pr.halted || T.stopReq then s
    else
      match T.candidate with
      | none => s
      | some (k, n, c) =>
        match pr.failing n with
        | some src =>
          let s := s.modTile t fun T => { T with pr := { T.pr with halted := true } }
          { s with faults := s.faults ++ [⟨0x24, T.pad, s.rank t, none, 0, BitVec.ofNat 64 k, BitVec.ofNat 64 src⟩] }
        | none =>
          let (w, s) := s.freshWord
          s.modTile t fun T =>
            (Tile.modCtx { T with pr := T.pr.setNode k fun n => { n with st := .running } } c fun x => x.dispatch k n w))

/-! Condition words and tokens (R121, R122, R151, R152). -/

/-- A condition word after a CONDW (R151). -/
def condwValue (o : CondwOp) (old v : BitVec 32) : BitVec 32 :=
  match o with
  | .set => v
  | .or => old ||| v
  | .clr => old &&& ~~~v

/-- CONDW_APPLY (R121): the k-th write on its way reaches the rank 0 tile and every replica. -/
def execCondwApply (p k : Nat) (s : State) : Out :=
  .next (
    match (if s.standing p then (s.padNet p).condw[k]? else none) with
    | none => s
    | some m =>
      (s.padTiles p).foldl (fun s t =>
        s.modTile t fun T =>
          { T with pr := { T.pr with cond := T.pr.cond.set m.word (condwValue m.op (T.pr.cond[m.word]) m.v) } })
        (s.modPadNet p fun n => { n with condw := n.condw.eraseIdx k }))

/-- TOKEN_ARRIVAL (R122): the oldest token is queued at every tile when every queue has room; one that names a node
that waits for none is discarded with the token-target fault, one record made at the rank 0 tile and of no context, of which
R21 and R122 say nothing (log 120). -/
def execTokenArrival (p : Nat) (s : State) : Out :=
  let ts := s.padTiles p
  .next (
    match (if s.standing p then (s.padNet p).tokens else []), ts with
    | (n, v) :: rest, t0 :: _ =>
      let drop (s : State) : State := s.modPadNet p fun x => { x with tokens := rest }
      let waits := match (s.tile t0).pr.nodes[n]? with | some g => (g.kind == 1 || g.kind == 2) && g.dsrc | none => false
      if !waits then (drop s).unitFault t0 none 0x25
      else if ts.any fun t => 16 ≤ (s.tile t).pr.tokens.length then s
      else ts.foldl (fun s t => s.modTile t fun T => { T with pr := { T.pr with tokens := T.pr.tokens ++ [(n, v)] } }) (drop s)
    | _, _ => s)

end Sys2Proof.Machine
end

