-- ==== Sys2Proof/Machine/Pages.lean ====
section
/-!
DEFINITION. Flocks (R272, R273, R276), page passes (R275), landings in the merge buffer (R277, R278), and what the host's
responses let go on (R345, R346).
-/
namespace Sys2Proof.Machine

/-- A request answered (R154, R192, R273): the register written where there is one, and the wait over. -/
def State.reply (s : State) (c : Call) (v : Option Word) : State :=
  let s := { s with calls := s.calls.filter fun k => k.id != c.id }
  match v with
  | none => s
  | some v => s.modRank c.pad c.rank fun T => T.modCtx c.c fun k => k.land ⟨.x c.d v, 0, .scalar, 0, false, none⟩

/-! Flocks (R272, R273). -/

def flockOf (l : List (Nat × Flock)) (f : Nat) : Flock :=
  match l.find? fun p => p.1 = f with
  | some p => p.2
  | none => ⟨[], [], false⟩

def setFlock (l : List (Nat × Flock)) (f : Nat) (v : Flock) : List (Nat × Flock) :=
  (l.filter fun p => p.1 != f) ++ [(f, v)]

/-- FLKADD of a rank (R273). -/
def Flock.add (f : Flock) (rank : Nat) (stream : Fin 4) : Flock :=
  let was := f.member.any fun p => p.1 = rank
  { f with
    member := (f.member.filter fun p => p.1 != rank) ++ [(rank, stream)],
    late := if f.begun && !was then f.late ++ [rank] else f.late }

/-- FLKDEL of a rank (R273). -/
def Flock.del (f : Flock) (rank : Nat) : Flock :=
  { f with member := f.member.filter fun p => p.1 != rank, late := f.late.filter fun r => r != rank }

def State.modFlock (s : State) (p f : Nat) (g : Flock → Flock) : State :=
  s.modPadNet p fun n => { n with flocks := setFlock n.flocks f (g (flockOf n.flocks f)) }

/-- FLOCK_EVENT (R272): request k is applied at its place in the order of the rank 0 tile, and its wait ends. -/
def execFlockEvent (p : Nat) (k : Nat) (s : State) : Out :=
  .next (
    match s.calls.find? fun c => c.id = k && c.pad = p with
    | none => s
    | some c =>
      if !s.standing p then s
      else
      match c.kind with
      | .flkAdd f st => (s.modFlock p f fun x => x.add c.rank (stream4 st)).reply c none
      | .flkDel f => (s.modFlock p f fun x => x.del c.rank).reply c none
      | _ => s)

/-! Passes (R275, R276). -/

/-- Ranks of a paddock in snake order (R275). -/
def Paddock.snakeRanks (p : Paddock) : List Nat :=
  (List.range p.rows).flatMap fun r =>
    (List.range p.cols).map fun c => r * p.cols + (if r % 2 = 0 then c else p.cols - 1 - c)

/-- The snapshot of a pass (R275): ranks with their streams, in snake order. -/
def Paddock.snapshot (p : Paddock) (f : Flock) (cu : Bool) : List (Nat × Fin 4) :=
  p.snakeRanks.filterMap fun r =>
    if cu && !f.late.contains r then none
    else (f.member.find? fun m => m.1 = r).map fun m => (r, m.2)

/-- The halves of a pass's page: the physical address of each with its leaf, by the fragments translated (R171). -/
def Pass.halves (x : Pass) : List (Nat × Nat) :=
  (List.range (x.len / 64)).filterMap fun k =>
    let va := x.src + 64 * k
    (x.frags[va / 2 ^ 16 - x.src / 2 ^ 16]?).map fun f => (f.1 + va % 2 ^ 16, f.2)

/-- The k-th pass of a paddock changed. -/
def State.modPass (s : State) (p k : Nat) (f : Pass → Pass) : State :=
  s.modPadNet p fun n => { n with passes := setAt n.passes k f }

/-- A pass that meets an uncorrectable error stops its copy, which begins again after ERET (R275, R326). -/
def State.stopPass (s : State) (p k : Nat) (t : TileId) (x : Pass) : State :=
  match (s.tile t).queue x.q with
  | [] => s
  | e :: _ =>
    ((s.modPadNet p fun n => { n with passes := n.passes.eraseIdx k }).modHead t x.q fun e =>
      { e with begun := false }).stopCopy t x.q e 7 0

/-- The halves of a page read in order, until the host must be asked for one (R275, R345, R346) or the domain of one is held
(R73); `asked` says that the host has answered for the first. -/
def State.readHalves (p k : Nat) (t : TileId) (x : Pass) : Bool → List (Nat × Nat) → State → State
  | _, [], s => s
  | asked, (pa, lf) :: r, s =>
    let o := (s.tile t).mem.bnd.owner
    let at_ := s.mem.eff pa
    if s.mem.held lf asked then s
    else
    let s := s.withMem (s.mem.evictOthers at_ o)
    match s.mem.hostNeed at_ 64 (bit lf 6) false with
    | some q => s.askHost at_ q o (Fin.ofNat 8 (leafHome lf)) (bit lf 6) (.page p x.rank x.serial)
    | none =>
      if s.mem.badIn pa 64 then s.stopPass p k t x
      else State.readHalves p k t x false r (s.modPass p k fun y => { y with page := y.page ++ s.mem.readN pa 64 })

/-- The rest of a page read. -/
def State.readPage (s : State) (p k : Nat) (t : TileId) (x : Pass) (asked : Bool := false) : State :=
  State.readHalves p k t x asked (x.halves.drop (x.page.length / 64)) s

/-- PASS_BEGIN (R275): the begin event of the k-th pass is applied, the snapshot taken, and the page read. A page
that already holds an uncorrectable error stops the copy before the event (R326). -/
def execPassBegin (p k : Nat) (s : State) : Out :=
  .next (
    match s.pad? p, (s.padNet p).passes[k]? with
    | some P, some x =>
      if x.left.isSome ∨ !s.standing p then s
      else
        let t := P.tile x.rank
        if x.halves.any fun h => s.mem.badIn h.1 64 then s.stopPass p k t x
        else
          let f := flockOf (s.padNet p).flocks x.flk
          let s := s.modFlock p x.flk fun f => if x.cu then { f with late := [], begun := false } else { f with begun := true }
          let s := s.modPass p k fun y => { y with left := some (P.snapshot f x.cu) }
          s.readPage p k t x
    | _, _ => s)

/-! Landings (R277, R278). -/

/-- What becomes of a page at a tile (R278). -/
inductive Landing where
  | dropped (cause : Nat)
  | stalled
  | lands
deriving DecidableEq, Repr

/-- The first row of R278 that holds. -/
def Tile.landing (T : Tile) (st : Fin 4) (seq len : Nat) : Landing :=
  let m := T.stream st
  if !m.opened then .dropped 1
  else if seq < m.floor then .dropped 2
  else if T.merges.any fun e => e.stream = st && e.seq == seq then .dropped 3
  else if 2 ^ m.lsz < len + 128 then .dropped 4
  else if ((m.busy.getD m.nslot none).isSome) ∨ 16 ≤ T.merges.length then .stalled
  else .lands

/-- A page lands (R278): the entry, the slot with its header, the busy mark, the counter. -/
def Tile.land (T : Tile) (st : Fin 4) (seq flk len rank : Nat) (page : List Byte) : Tile :=
  let m := T.stream st
  let a := m.lbase + m.nslot * 2 ^ m.lsz
  let header := bytesOf 8 seq ++ bytesOf 8 flk ++ bytesOf 8 len ++ bytesOf 8 rank ++ List.replicate 96 0
  let data := header ++ page.take len
  let cells := (tab data.length fun j => (a + j) % 2 ^ 20).zip data
  let entry : MergeEntry := ⟨st, seq, none⟩
  let mem := (T.mem.engineStore cells).addCounter m.cidx 1
  Tile.modStream { T with merges := T.merges ++ [entry], mem := mem } st fun m =>
    { m with busy := setAt m.busy m.nslot fun _ => some seq, nslot := (m.nslot + 1) % 4 }

/-- The page of a pass served to the next rank of its snapshot (R278). -/
def State.servePage (s : State) (p k : Nat) (P : Paddock) (x : Pass) : State :=
  match x.left with
  | some ((r, st) :: rest) =>
    let t := P.tile r
    let advance (s : State) : State := s.modPass p k fun y => { y with left := some rest }
    match (s.tile t).landing st x.seq x.len with
    | .stalled => s
    | .dropped c =>
      (advance s).sendRecord t ((s.tile t).stream st).ctx 0x11 (c + 256 * st.val) (x.seq + 65536 * x.flk)
    | .lands => advance (s.modTile t fun T => T.land st x.seq x.flk x.len x.rank x.page)
  | _ => s

/-- The k-th pass reads what is left of its page; once it is read, it reaches the next rank of its snapshot (R278). -/
def State.goOnPass (s : State) (p k : Nat) (asked : Bool := false) : State :=
  match s.pad? p, (s.padNet p).passes[k]? with
  | some P, some x =>
    if x.left.isNone ∨ !s.standing p then s
    else if x.page.length < x.len then s.readPage p k (P.tile x.rank) x asked
    else s.servePage p k P x
  | _, _ => s

/-- PAGE_LANDING (R278). -/
def execPageLanding (p k : Nat) (s : State) : Out := .next (s.goOnPass p k)

/-- PASS_COMPLETION (R275): every rank of the snapshot has been served. -/
def execPassCompletion (p k : Nat) (s : State) : Out :=
  .next (
    match (s.padNet p).passes[k]? with
    | none => s
    | some x =>
      if !s.standing p then s
      else
        match x.left with
        | some [] =>
          (s.modPadNet p fun n => { n with passes := n.passes.eraseIdx k }).modRank p x.rank fun T =>
            T.modQueue x.q fun l => l.map fun e => if e.serial = x.serial then { e with done := true } else e
        | _ => s)

/-! The host's responses (R345, R346). -/

/-- What waited for a half is performed against the response, if it still stands (R346). -/
def State.serveWaiter (s : State) : HostWait → State
  | .access t id k => s.performAccess t id k
  | .copy t q => s.performCopy t q true
  | .add t q => s.completeCopy t q true
  | .page p rank serial =>
    match (s.padNet p).passes.findIdx? fun x => x.rank == rank && x.serial == serial with
    | some k => s.goOnPass p k true
    | none => s

/-- A domain change that waits for the requests of its domain comes next once none is left (R73). -/
def State.quietDomain (s : State) (d : Fin 8) : State :=
  if ((s.mem.dom d).busy || (s.mem.dom d).leave != 0) && !s.domainBusy d then
    { s with agenda := .domainChange d :: s.agenda }
  else s

/-- HOST_RESPONSE (R345, R346): the half is held with the response's data, and what waited for it is performed before
anything else reaches the half; one that came for accesses to nalloc pages alone goes back with what they wrote (R72; log
78). -/
def execHostResponse (hpa : Nat) (own : Bool) (s : State) : Out :=
  let h := (2 ^ 47 + hpa) / 64
  .next (
    match s.mem.hreqs.find? fun q => q.half == h && (q.kind != .rdShared) == own with
    | none => s
    | some q =>
      let was := s.mem.halves.any fun x => x.half == h
      let takes := s.mem.takesWay q.dom (h * 64) q.nalloc
      let s := if !was && takes then s.makeWay q.dom (h * 64) else s
      let data := tab 64 fun j => Sparse.get 0 s.mem.bytes (h * 64 + j)
      let x := q.held (s.mem.halves.find? fun x => x.half = h) own data
      let m := { s.mem with
        hreqs := s.mem.hreqs.filter fun x => x != q,
        halves := (s.mem.halves.filter fun x => x.half != h) ++ [x] }
      ((q.waiters.foldl State.serveWaiter { s with mem := m }).passHalf (was || takes) (h * 64)).quietDomain q.dom)

end Sys2Proof.Machine
end

