-- ==== Sys2Proof/Machine/Steps.lean ====
section
/-!
DEFINITION. The steps of issue and interruption: BUNDLE_FETCH, CLOSING_POINT, RESULT_LANDS,
PANEL_SCOREBOARD_ENGINE_WAIT, DELIVER, RECORD_DELIVERY, SYSTEM_FAULT, POINT_OVERRUN, DATA_ERROR.
-/
namespace Sys2Proof.Machine

/-- BUNDLE_FETCH (R91, R116): one cycle of a tile or drover thread. A bundle whose waits and checks have passed is
left in issue with its syllables to perform. -/
def execBundleFetch (u : Issuer) (s : State) : Out :=
  match u with
  | .tile t => .next (s.tileCycle t)
  | .drover n => .next (s.droverCycle n)

/-- CLOSING_POINT (R124, R130): the end of the bundle that has issued, when its waits are over. -/
def execClosingPoint (g : Agent) (s : State) : Out := .next (s.endBundle g)

/-- The cycle count brought up to a cycle (R127). -/
def State.upTo (s : State) (g : Agent) (cycle : Nat) : State :=
  match g with
  | .ctx t _ => s.modTile t fun T => { T with cycle := max T.cycle cycle }
  | .drover n => s.modDrover n fun d => { d with cycle := max d.cycle cycle }

/-- RESULT_LANDS (R128): the k-th result in flight lands in the cycle in which its latency has elapsed. -/
def execResultLands (g : Agent) (k : Nat) (s : State) : Out :=
  .next (
    match (s.ctx g).flight[k]? with
    | none => s
    | some r =>
      if r.access.isSome then s
      else (s.upTo g r.due).modCtx g fun c => { c.land r with flight := c.flight.eraseIdx k })

/-- PANEL_SCOREBOARD_ENGINE_WAIT (R252): in the ninth cycle of a panel stall that still stands the running context blocks, or stops under a pending curtain (R328). -/
def execPanelScoreboardEngineWait (t : TileId) (s : State) : Out :=
  let T := s.tile t
  .next (
    match T.run with
    | none => s
    | some c =>
      if 8 ≤ (T.ctx c).stall && (T.ctx c).tail.isNone && (s.waitsAt t c).contains .panel then s.blockAt t c else s)

/-- DELIVER (R319): the trap that waits is delivered once no result is in flight. -/
def execDeliver (g : Agent) (s : State) : Out :=
  .next (
    match (s.ctx g).pending with
    | none => s
    | some q => if (s.ctx g).flight.isEmpty then s.deliver g q else s)

/-- RECORD_DELIVERY (R322): the oldest record that the context can take now. -/
def execRecordDelivery (t : TileId) (c : Fin 4) (s : State) : Out := .next ((s.takeRecord t c).getD s)

/-! System faults (R325). -/

/-- The place of a fault in the completion record (R336). -/
def faultPlace (rank : Nat) (c : Option (Fin 4)) : Nat :=
  pack [(1, 63), ((c.map (·.val)).getD 0 % 4, 9), (rank % 512, 0)]

/-- A kill begins (R338); the first reason stands. -/
def Paddock.kill (p : Paddock) (i : KillInfo) : Paddock :=
  if p.killed.isSome then p else { p with killed := some i, phase := .killing }

/-- SYSTEM_FAULT (R325): the drover thread of the paddock takes its oldest fault. A token-target fault is recorded;
every other one kills. -/
def execSystemFault (p : Nat) (s : State) : Out :=
  .next (
    match s.faults.find? fun f => f.pad == some p with
    | none => s
    | some f =>
      let s := { s with faults := s.faults.erase f }
      s.modPad p fun k =>
        if f.code = 0x25 then { k with recorded := k.recorded ++ [f] }
        else k.kill ⟨f.code, faultPlace f.rank f.ctx, f.pc, f.info0, f.info1⟩)

/-- POINT_OVERRUN (R330): the running context has passed 12,000 counted cycles under a curtain. -/
def execPointOverrun (t : TileId) (s : State) : Out :=
  let T := s.tile t
  .next (
    match T.run with
    | none => s
    | some c => if T.stopReq && 12000 < T.past then s.sysFault (.ctx t c) 0x28 else s)

end Sys2Proof.Machine
end

