-- ==== Sys2Proof/Machine/Links.lean ====
section
/-!
DEFINITION. The Duotte links at work: training (R307), binding (R308), slots, null frames and link faults (R312),
and what resets, curtains and kills leave (R313, R315).
-/
namespace Sys2Proof.Machine

/-! The owner of a stream (R309). -/

/-- The rank and context that own a stream's entry on our side: its sender when our side sends. -/
def Port.ownerOf (p : Port) (e : Nat) : Nat × Fin 4 :=
  if ttSide e = p.side then (ttSrank e, Fin.ofNat 4 (ttSctx e)) else (ttDrank e, Fin.ofNat 4 (ttDctx e))

def Port.stream (p : Port) (k : Nat) : PortStream := p.streams[Fin.ofNat 64 k]
def Port.modStream (p : Port) (k : Nat) (f : PortStream → PortStream) : Port :=
  { p with streams := p.streams.set (Fin.ofNat 64 k) (f (p.stream k)) }

/-- A timetable-miss (0x13) or link (0x14) record of a stream, and its halt; a halted stream raises nothing (R312,
R323). -/
def State.linkFault (s : State) (port : Bool) (stream : Nat) (code cause frame : Nat) : State :=
  let p := s.port port
  match p.pad, p.streamEntry stream with
  | some pid, some e =>
    if (p.stream stream).halted then s
    else
      let o := p.ownerOf e
      let info0 := pack [(cause, 0), (port.toNat, 8), (stream, 16)]
      let q : TrapReq := ⟨code, true, 0xFF, 0, 0, BitVec.ofNat 64 info0, BitVec.ofNat 64 frame, none, none⟩
      (s.modRank pid o.1 fun T => T.modCtx o.2 fun c => c.record q).modPort port fun p =>
        p.modStream stream fun x => { x with halted := true }
  | _, _ => s

/-- The streams that have a valid entry within the period, each once. -/
def Port.streamNumbers (p : Port) : List Nat := (List.range 64).filter fun k => (p.streamEntry k).isSome

/-! Training (R307). -/

/-- LINK_TRAINING (R307): the counters of both boxes start at one value, and the port gets its side: 0 in the box with
the lower serial number, of its own and its peer's. A device that has not come to step 5 of R361 trains no link. -/
def execLinkTraining (port : Bool) (peer : BitVec 64) (frame : BitVec 48) (s : State) : Out :=
  .next (
    if s.dev.stage.toNat < 5 then s
    else s.modPort port fun p => { p with trained := true, side := decide (peer < Config.serial), frame := frame })

/-- TRAINING_LOSS (R307, R312): a link fault at our owner of every stream, and every stream halted. -/
def execTrainingLoss (port : Bool) (s : State) : Out :=
  let f := (s.port port).frame.toNat
  let s := (s.port port).streamNumbers.foldl (fun s k => s.linkFault port k 0x14 0 f) s
  .next (s.modPort port fun p =>
    { p with trained := false, streams := p.streams.map fun (x : PortStream) => { x with halted := true } })

/-! Binding (R308). -/

/-- The checks of a bind that need no launch (R308): entries below P are formed, and a stream's valid entries agree
in side, ranks and contexts. -/
def Port.tableOk (p : Port) : Bool :=
  let es := p.table.filter fun q => q.1 < p.period
  es.all fun q =>
    ttFormed q.2.toNat &&
    (!ttValid q.2.toNat || match p.streamEntry (ttStream q.2.toNat) with
      | some e =>
        let v := q.2.toNat
        ttSide e == ttSide v && ttSrank e == ttSrank v && ttDrank e == ttDrank v && ttSctx e == ttSctx v &&
          ttDctx e == ttDctx v
      | none => false)

/-- No rank of the timetable lies outside a paddock of n tiles (R308). -/
def Port.ranksOk (p : Port) (n : Nat) : Bool :=
  (p.table.filter fun q => q.1 < p.period && ttValid q.2.toNat).all fun q =>
    ttSrank q.2.toNat < n && ttDrank q.2.toNat < n

/-- A port unbound: its streams hold nothing. -/
def Port.unbind (p : Port) : Port :=
  { p with bound := false, pad := none, streams := Vector.replicate 64 PortStream.empty, curtained := false,
           report := [] }

/-- What every write of lk.bind does (R308): plen, owner and tag are written, err is cleared by a 1. -/
def Port.fields (p : Port) (w : BitVec 64) : Port :=
  { p with err := p.err && !w.getLsbD 60, plen := BitVec.ofNat 12 (fld w.toNat 48 12),
           owner := BitVec.ofNat 8 (fld w.toNat 40 8), tag := BitVec.ofNat 32 w.toNat }

/-- PORT_BIND (R308): a write of lk.bind with bound set. A port that is bound stays so (log 82). -/
def execPortBind (port : Bool) (w : BitVec 64) (s : State) : Out :=
  s.hostWrite fun s => s.modPort port fun p =>
    let p := p.fields w
    if p.bound then p
    else
      if p.tableOk then { p.unbind with bound := true } else { p with err := true }

/-- The port of a link transfer. -/
def CopyWork.port? : CopyWork → Option Bool
  | .send port _ _ _ _ _ => some port
  | .recv port _ _ _ _ _ => some port
  | .copy _ => none
  | .page _ _ _ _ _ _ _ => none
  | .add _ _ => none

def CopyWork.isLink (w : CopyWork) : Bool := w.port?.isSome

/-- A tile's unfinished transfers of some ports are held: they move no flit and complete with no effect (R315). -/
def Tile.holdLinks (T : Tile) (ports : List Bool) (port : Bool → Port) : Tile :=
  { T with queues := T.queues.map fun l => l.map fun (e : CopyEntry) =>
      match e.work.port? with
      | some b => if ports.contains b && e.unfinished (port b) then { e with held := true } else e
      | none => e }

/-- A port that the host unbinds (R308) moves nothing more of the transfers its paddock has posted: they are held until the
paddock is killed, or resumes after a curtain (R315; log 105). -/
def State.holdPort (s : State) (port : Bool) : State :=
  match (s.port port).pad.bind s.pad? with
  | some p => (List.range (p.cols * p.rows)).foldl (fun u k => u.modRank p.pid k fun T => T.holdLinks [port] s.port) s
  | none => s

/-- PORT_UNBIND (R308). -/
def execPortUnbind (port : Bool) (s : State) : Out :=
  s.hostWrite fun s => (s.holdPort port).modPort port Port.unbind

/-- The launch that a bound port waits for has started (R308): the port is its own, or the bind is refused. -/
def Port.meet (p : Port) (owner : OwnerTag) (tag : BitVec 32) (pid n : Nat) : Port :=
  if p.bound && p.pad.isNone && p.owner == owner && p.tag == tag then
    if p.ranksOk n then { p with pad := some pid } else { p with bound := false, err := true }
  else p

def State.modPorts (s : State) (f : Port → Port) : State := { s with ports := s.ports.map f }

/-- The ports of a paddock are unbound (R308, R315). -/
def State.unbindPorts (s : State) (pid : Nat) : State := s.modPorts fun p => if p.pad = some pid then p.unbind else p

/-! Slots (R312). -/

/-- The halts that lift in a frame (R313): at a period start not before the frame that the reset named. -/
def Port.lift (p : Port) : Port :=
  if p.frame.toNat % p.period = 0 then
    { p with streams := p.streams.map fun (x : PortStream) =>
        match x.rearm with
        | some f => if f ≤ p.frame.toNat then { x with halted := false, rearm := none } else x
        | none => x }
  else p

/-- FRAME_START (R312): the slot of frame lk.frame, when our side sends in it; then the next frame. A port that is
not trained or not bound sends nothing; one whose launch has not started has nothing to send and no context to tell
(log 46). -/
def execFrameStart (port : Bool) (s : State) : Out :=
  let p := (s.port port).lift
  let f := p.frame
  let e := p.entry (f.toNat % p.period)
  let next (s : State) : State := s.modPort port fun p => { p with frame := p.frame + 1 }
  .next (
    if !p.trained then s
    else if !p.bound then next s
    else
      let s := s.modPort port fun _ => p
      if !ttValid e || ttSide e != p.side then next s
      else
        let k := ttStream e
        let x := p.stream k
        let n := ttFlits e
        let ready := !x.halted && n ≤ x.sendBuf.length
        let sent : LinkFrame :=
          { num := f, stream := Fin.ofNat 64 k, flits := if ready then (x.sendBuf.take n).map (·.2) else [],
            null := !ready, bad := false, curtained := p.curtained, report := p.report.head? }
        let s := (s.emit [.frame port sent]).modPort port fun p => { p with report := p.report.drop 1 }
        let s := if ready then s.modPort port fun p => p.modStream k fun x => { x with sendBuf := x.sendBuf.drop n }
                 else s.linkFault port k 0x13 1 f.toNat
        next s)

/-- What a frame does at the stream it names, when FEC has not failed on it (R312). -/
def State.frameIn (s : State) (port : Bool) (f : LinkFrame) : State :=
  let p := s.port port
  let k := f.stream.val
  let x := p.stream k
  if f.curtained then
    p.streamNumbers.foldl (fun s k => s.linkFault port k 0x13 3 f.num.toNat) s
  else if x.halted then s
  else if f.null then s.linkFault port k 0x13 1 f.num.toNat
  else if 64 < x.recvBuf.length + f.flits.length then s.linkFault port k 0x13 2 f.num.toNat
  else s.modPort port fun p => p.modStream k fun x => { x with recvBuf := x.recvBuf ++ f.flits }

/-- FRAME_ARRIVAL (R312): a frame of the other side. Its header may report one of our frames as uncorrectable; one
on which FEC failed is discarded whole, its header with it, and reported. -/
def execFrameArrival (port : Bool) (f : LinkFrame) (s : State) : Out :=
  let p := s.port port
  let e := p.entry (f.num.toNat % p.period)
  let ours := !ttValid e || ttSide e == p.side
  .next (
    if !p.trained || !p.bound then s
    else if f.bad then
      if ours then s
      else (s.linkFault port (ttStream e) 0x14 0 f.num.toNat).modPort port fun p => { p with report := p.report ++ [f.num] }
    else
      let s := match f.report with
        | some n =>
          let e := p.entry (n.toNat % p.period)
          if ttValid e && ttSide e == p.side then s.linkFault port (ttStream e) 0x14 0 n.toNat else s
        | none => s
      if !ours && ttStream e = f.stream.val then s.frameIn port f else s)

/-! Curtains (R315). -/

/-- A curtain begins at the ports of a paddock. -/
def Port.curtain (p : Port) : Port :=
  { p with
    curtained := true,
    streams := p.streams.map fun (_ : PortStream) => (⟨[], [], true, none⟩ : PortStream) }

/-- A port whose paddock has resumed: what the drain still put into its buffers is discarded (R315). -/
def Port.lowered (p : Port) : Port :=
  { p with curtained := false, streams := p.streams.map fun (x : PortStream) => { x with sendBuf := [], recvBuf := [] } }

end Sys2Proof.Machine
end

