-- ==== Sys2Proof/Machine/Queue.lean ====
section
/-!
DEFINITION. Queues and packets (R36 to R46, R365): notify, take, begin, the short packets, completion; the launch
completion record (R336).
-/
namespace Sys2Proof.Machine

/-! Packets (R24, R39, R40). -/

/-- n bytes at an offset of a packet, within one word. -/
def pkF (ws : List Word) (off n : Nat) : Nat := fld (ws.getD (off / 8) 0).toNat (8 * (off % 8)) (8 * n)

def pkKind (ws : List Word) : Nat := fld (pkF ws 0 8) 0 8
def pkBarrier (ws : List Word) : Bool := bit (pkF ws 0 8) 8
def pkAcq (ws : List Word) : Nat := fld (pkF ws 0 8) 9 2
def pkRel (ws : List Word) : Nat := fld (pkF ws 0 8) 11 2
def pkMsi (ws : List Word) : Bool := bit (pkF ws 0 8) 13
def pkVec (ws : List Word) : Nat := fld (pkF ws 0 8) 16 12
def pkTag (ws : List Word) : BitVec 32 := BitVec.ofNat 32 (fld (pkF ws 0 8) 32 32)
def pkSig (ws : List Word) : Nat := pkF ws 8 8

def pkCols (ws : List Word) : Nat := pkF ws 0x20 1
def pkRows (ws : List Word) : Nat := pkF ws 0x21 1
def pkLead (ws : List Word) : Nat := pkF ws 0x22 2
def pkNscene (ws : List Word) : Nat := pkF ws 0x24 2
def pkNent (ws : List Word) : Nat := pkF ws 0x26 2
def pkClen (ws : List Word) : Nat := pkF ws 0x38 4
def pkNlate (ws : List Word) : Nat := pkF ws 0x3C 4
def pkCrec (ws : List Word) : Nat := pkF ws 0x58 8

/-- Every body byte from an offset on is zero (R40). -/
def pkZeroFrom (ws : List Word) (off : Nat) : Bool :=
  pkF ws off (8 - off % 8) == 0 && (ws.drop (off / 8 + 1)).all (· == 0)

/-- The reserved fields of a packet are zero (R24, R39, R40). -/
def pkReservedOk (ws : List Word) : Bool :=
  let w0 := pkF ws 0 8
  fld w0 28 4 == 0 && fld w0 14 2 == 0 && pkAcq ws != 3 && pkRel ws != 3 &&
  match pkKind ws with
  | 1 => pkZeroFrom ws 0x60 && fld (pkLead ws) 11 4 == 0
  | 2 => pkZeroFrom ws 0x1C
  | 3 => pkZeroFrom ws 0x1C
  | 4 => pkZeroFrom ws 0x20
  | 5 => pkZeroFrom ws 0x20
  | _ => pkZeroFrom ws 0x10

/-- One row of R365: err 5 for a misaligned address, err 6 for one that is not mapped with the rights. -/
def addrErr (m : MemSys) (o : OwnerTag) (va align n : Nat) (rd wr : Bool) : Option Nat :=
  if va % align ≠ 0 then some 5 else if m.mapped o rd wr va n then none else some 6

def firstErr : List (Option Nat) → Option Nat
  | [] => none
  | some e :: _ => some e
  | none :: r => firstErr r

/-- The address checks of R365, in the order of the packet's fields. -/
def pkAddrErr (m : MemSys) (o : OwnerTag) (ws : List Word) : Option Nat :=
  firstErr [
    (if pkSig ws = 0 then none else addrErr m o (pkSig ws) 8 8 true true),
    (match pkKind ws with
     | 1 => firstErr [addrErr m o (pkF ws 0x10 8) 64 0 false false, addrErr m o (pkF ws 0x18 8) 0x10000 0 false false,
              addrErr m o (pkCrec ws) 8 128 false true]
     | 2 => addrErr m o (pkF ws 0x10 8) 32 (32 * pkF ws 0x1A 2) true false
     | 3 => addrErr m o (pkF ws 0x10 8) 128 (128 * pkF ws 0x18 4) true false
     | 4 => addrErr m o (pkF ws 0x10 8) 8 8 true false
     | 5 => addrErr m o (pkF ws 0x10 8) 8 8 true true
     | _ => none)]

/-- Why a packet at a level is the offending packet (R44, R45, R365), if it is. -/
def pkErr (m : MemSys) (o : OwnerTag) (level : Nat) (ws : List Word) : Option Nat :=
  if pkKind ws = 0 then some 4
  else if 8 ≤ pkKind ws then some 1
  else if !pkReservedOk ws then some 2
  else if pkKind ws = 3 ∧ 3 ≤ level then some 3
  else pkAddrErr m o ws

/-- Step 0 of R82: the status of a launch refused when it is taken. -/
def step0 (ws : List Word) : Option Nat :=
  if pkCols ws = 0 ∨ 24 < pkCols ws ∨ pkRows ws = 0 ∨ 16 < pkRows ws ∨ 256 < pkNscene ws ∨ 64 < pkNent ws then some 5
  else if 65536 < pkNlate ws then some 7
  else if 65536 < pkClen ws ∨ pkClen ws % 8 ≠ 0 then some 8
  else none

/-! Slots. -/

def QueueSlot.fnId (q : QueueSlot) : Fin 17 := Fin.ofNat 17 q.fn.toNat

/-- slot.stat.warn. -/
def State.warn (s : State) (n : SlotId) : State := s.modSlot n fun q => { q with warn := true }

/-- MSI-X vectors of a function (R32). -/
def vectors (f : Fin 17) : Nat := if f = 0 then 256 else 32

/-! The completion record (R336). -/

/-- The bytes of a launch completion record. -/
def recordBytes (status : Nat) (k : KillInfo) (cycles curtains : Nat) (attest : BitVec 256) : List Byte :=
  bytesOf 4 status ++ bytesOf 4 1 ++ bytesOf 8 k.place ++ bytesOf 8 k.fpc ++ bytesOf 8 k.info0.toNat ++
  bytesOf 8 k.info1.toNat ++ bytesOf 8 cycles ++ bytesOf 4 curtains ++ List.replicate 12 0 ++
  bytesOf 32 attest.toNat ++ List.replicate 32 0

/-- The record written at crec; where it no longer translates it is not written, and the queue warns (R365). -/
def State.writeRecord (s : State) (n : SlotId) (o : OwnerTag) (crec : Nat) (data : List Byte) : State :=
  if s.mem.mapped o false true crec 128 then s.writeVa o crec data else s.warn n

/-- A completed launch is remembered for quotes: the last 16 of a slot (R363). -/
def State.remember (s : State) (n : SlotId) (h : History) : State :=
  s.modSlot n fun q => { q with hist := (h :: q.hist).take 16 }

/-! Taking (R38, R46). -/

/-- The virtual address of the packet with an index (R36). -/
def QueueSlot.packetVa (q : QueueSlot) (i : Nat) : Nat := q.base.toNat + i % 2 ^ q.lsize.toNat * 128

/-- A packet read in memory. -/
def MemSys.packet (m : MemSys) (o : OwnerTag) (va : Nat) : List Word :=
  let b := m.readVa o va 128
  tab 16 fun k => BitVec.ofNat 64 (ofBytes ((b.drop (8 * k)).take 8))

/-- The queue that a slot serves. -/
def QueueSlot.queue (q : QueueSlot) : QueueId := ⟨q.owner, q.cb, q.base⟩

/-- Every packet begun and not complete, of whatever slot: a queue keeps its packets when another slot resumes it. -/
def State.runs (s : State) : List Running := s.slots.toList.flatMap (·.running)

def State.run? (s : State) (k : Nat) : Option Running := s.runs.find? fun r => r.k = k

def QueueSlot.modRun (q : QueueSlot) (k : Nat) (f : Running → Running) : QueueSlot :=
  { q with running := q.running.map fun r => if r.k = k then f r else r }
def State.modRun (s : State) (n : SlotId) (k : Nat) (f : Running → Running) : State := s.modSlot n fun q => q.modRun k f

/-- A packet taken: checked, refused at step 0 with its record written, or kept to begin. -/
def State.take (s : State) (n : SlotId) (ws : List Word) (idx level : Nat) (parent : Option Nat) : State :=
  let queue := (s.slot n).queue
  match pkErr s.mem queue.owner level ws with
  | some e => s.haltQueue n e idx
  | none =>
    let refused := if pkKind ws = 1 then step0 ws else none
    let s := match refused with
      | some st =>
        (s.writeRecord n queue.owner (pkCrec ws) (recordBytes st ⟨st, 0, 0, 0, 0⟩ 0 0 0)).remember n
          ⟨pkTag ws, queue.owner, st, 0⟩
      | none => s
    State.modSlot { s with serial := s.serial + 1 } n fun q =>
      { q with taken := some ⟨s.serial, queue, ws, idx, level, parent, refused, 0⟩ }

/-! Counter waits (R40, R46). -/

/-- The counter-wait packets that a slot's notify page wakes: those it began, and those of its queue (log 53). -/
def State.counterWaits (s : State) (n : SlotId) : List (SlotId × Running) :=
  (List.finRange 64).flatMap fun m => ((s.slot m).running.filter fun r =>
    pkKind r.words == 4 && !r.done && (m == n || r.queue == (s.slot n).queue)).map fun r => (m, r)

/-- Whether the counter of a counter wait has reached its value. -/
def Running.satisfied (r : Running) (m : MemSys) : Bool :=
  m.mapped r.owner true false (pkF r.words 0x10 8) 8 && pkF r.words 0x18 8 ≤ m.word r.owner (pkF r.words 0x10 8)

/-- The counter of a counter wait is about to be read (R293). -/
def Running.hold (r : Running) (s : State) : State := s.holdVa r.owner (pkF r.words 0x10 8) 8

/-- Counter waits that read their counters now. -/
def State.readCounters (s : State) (l : List (SlotId × Running)) : State :=
  let s := l.foldl (fun s x => s.modRun x.1 x.2.k fun r => { r with look := true }) s
  { s with agenda := (l.map fun x => Instr.counterWait x.1 x.2.k) ++ s.agenda }

/-- PACKET_TAKE (R38): the next packet of the innermost open buffer of the queue, else of the ring, while the thread is
awake. At an empty header the thread reads its satisfied counter waits, and sleeps when there is none (R46). -/
def execPacketTake (n : SlotId) (s : State) : Out :=
  let q := s.slot n
  .next (
    if !q.bound || q.halted || q.taken.isSome || (s.drover n).halted || (s.fn q.fnId).resetting ||
        s.runs.any (fun r => r.queue == q.queue && pkKind r.words == 3 && !r.opened) then s
    else
      match s.buffers.find? fun b => b.queue == q.queue && b.left != 0 with
      | some b =>
        if s.mem.mapped q.owner true false b.va 128 then
          let s := s.holdVa q.owner b.va 128
          s.take n (s.mem.packet q.owner b.va) b.idx b.level (some b.k)
        else s.haltQueue n 6 b.idx
      | none =>
        if !q.wake then s
        else if !s.mem.mapped q.owner true false (q.packetVa q.next) 128 then s.haltQueue n 6 q.next
        else
          let s := s.holdVa q.owner (q.packetVa q.next) 128
          let ws := s.mem.packet q.owner (q.packetVa q.next)
          if pkKind ws ≠ 0 then s.take n ws q.next 0 none
          else
            let s := (s.counterWaits n).foldl (fun s x => x.2.hold s) s
            match (s.counterWaits n).filter fun x => x.2.satisfied s.mem with
            | [] => s.modSlot n fun q => { q with wake := false }
            | l => s.readCounters l)

/-! Beginning (R38, R42). -/

/-- The indirect packets that contain a packet. The fuel is the nesting. -/
def ancestors (runs : List Running) : Nat → Option Nat → List Nat
  | 0, _ => []
  | _, none => []
  | f + 1, some k => k :: ancestors runs f ((runs.find? fun r => r.k = k).bind (·.parent))

/-- The barrier bit is met: every earlier packet of the queue has completed; the indirect packets that contain it are
not earlier packets. -/
def State.barrierMet (s : State) (t : Taken) : Bool :=
  !pkBarrier t.words ||
    (s.runs.filter fun r => r.queue == t.queue).all fun r => (ancestors s.runs 4 t.parent).contains r.k

/-- The launch that the drover has placed for a packet taken (R42). -/
def State.placedFor (s : State) (t : Taken) : Option Paddock := s.pads.find? fun p => p.k == t.k && p.phase == .loading

/-- Where the queue goes on after a packet: past its ring word, which is cleared before the read index is written with
release at system scope (R38, R287), or one packet further in its buffer. -/
def State.passPacket (s : State) (n : SlotId) (t : Taken) : State :=
  if t.level = 0 then
    let q := s.slot n
    let s := (s.writeVa q.owner (q.packetVa t.idx) (bytesOf 8 0)).writeBacks q.owner
    (s.writeVa q.owner (q.cb.toNat + 0x80) (bytesOf 8 (t.idx + 1))).modSlot n fun q => { q with next := t.idx + 1 }
  else
    { s with buffers := s.buffers.map fun b =>
        if t.parent = some b.k then { b with va := b.va + 128, left := b.left - 1 } else b }

/-- A packet begins (R38, R42); a counter wait reads its counter (R40). -/
def State.begin_ (s : State) (n : SlotId) (t : Taken) (target : Option Nat) : State :=
  let r : Running :=
    ⟨t.k, t.queue, (s.slot n).fnId, t.words, t.idx, t.level, t.parent, target, false, t.refused.isSome, false⟩
  let s := (s.passPacket n t).modSlot n fun q => { q with taken := none, running := q.running ++ [r] }
  if pkKind t.words = 4 then s.readCounters [(n, r)] else s

/-- PACKET_BEGIN (R42): the packet taken begins once its barrier is met and, for a launch, it is placed or refused; none does
once a reset of the function has begun (R53). -/
def execPacketBegin (n : SlotId) (s : State) : Out :=
  let q := s.slot n
  .next (
    match q.taken with
    | none => s
    | some t =>
      if q.halted || (s.fn q.fnId).resetting || !s.barrierMet t then s
      else if pkKind t.words = 1 && t.refused.isNone then
        match s.placedFor t with
        | some p => s.begin_ n t (some p.pid)
        | none => s
      else s.begin_ n t none)

/-! The work of packets (R40, R41). -/

/-- A packet begun, of a kind and not done. -/
def State.running? (s : State) (n : SlotId) (k kind : Nat) : Option Running :=
  (s.slot n).running.find? fun r => r.k = k && pkKind r.words == kind && !r.done

def State.done (s : State) (n : SlotId) (k : Nat) : State := s.modRun n k fun r => { r with done := true }

/-- INDIRECT (R42): the packets of the buffer stand in its place. -/
def execIndirect (n : SlotId) (k : Nat) (s : State) : Out :=
  .next (
    match s.running? n k 3 with
    | none => s
    | some r =>
      if r.opened then s
      else
        let b : Buffer := ⟨r.queue, k, pkF r.words 0x10 8, pkF r.words 0x18 4, r.level + 1, r.idx⟩
        State.modRun { s with buffers := b :: s.buffers } n k fun r => { r with opened := true })

/-- COUNTER_WAIT (R40): a counter that is to be read is read; a read that no longer translates leaves the packet until
the next notify (R365). -/
def execCounterWait (n : SlotId) (k : Nat) (s : State) : Out :=
  .next (
    match s.running? n k 4 with
    | none => s
    | some r =>
      if !r.look then s
      else
        let s := r.hold (s.modRun n k fun r => { r with look := false })
        if r.satisfied s.mem then s.done n k
        else if s.mem.mapped r.owner true false (pkF r.words 0x10 8) 8 then s
        else s.warn n)

/-- An atomic add to a counter in memory; skipped where it no longer translates, with the warning of the slot that began the
packet: of a queue that has moved to another slot meanwhile no rule says which (R365; log 108). -/
def State.addVa (s : State) (n : SlotId) (o : OwnerTag) (a v : Nat) : State :=
  if s.mem.mapped o true true a 8 then s.writeVa o a (bytesOf 8 (s.mem.word o a + v)) else s.warn n

/-- COUNTER_ADD (R40). -/
def execCounterAdd (n : SlotId) (k : Nat) (s : State) : Out :=
  .next (
    match s.running? n k 5 with
    | none => s
    | some r => (s.addVa n r.owner (pkF r.words 0x10 8) (pkF r.words 0x18 8)).done n k)

/-- NO_OP (R40). -/
def execNoOp (n : SlotId) (k : Nat) (s : State) : Out :=
  .next (if (s.running? n k 7).isSome then s.done n k else s)

/-- Whether a launch has begun (R42). -/
def State.begun (s : State) (p : Paddock) : Bool := s.runs.any fun r => r.target == some p.pid && pkKind r.words == 1

/-- The launches of a queue with a tag that have begun (R41). -/
def State.launches (s : State) (queue : QueueId) (tag : BitVec 32) : List Paddock :=
  s.pads.filter fun p => p.queue == queue && pkTag p.pkt == tag && s.begun p

/-- The oldest-begun launch among some (R41). -/
def oldest : List Paddock → Option Paddock
  | [] => none
  | p :: r =>
    match oldest r with
    | some x => if p.k ≤ x.k then some p else some x
    | none => some p

/-- KILL (R41): the oldest-begun launch of the tag is killed; without one there is nothing to do. A launch whose kill
stands already is one: the packet waits for the end of that kill (log 83). -/
def execKill (n : SlotId) (k : Nat) (s : State) : Out :=
  .next (
    match s.running? n k 6 with
    | none => s
    | some r =>
      if r.target.isSome then s
      else
        match oldest (s.launches r.queue (pkTag r.words)) with
        | none => s.done n k
        | some p =>
          (s.modPad p.pid fun p => p.kill ⟨0x10, 0, 0, 0, 0⟩).modRun n k fun r => { r with target := some p.pid })

/-! Notify (R34, R46). -/

/-- The slot behind a notify page: slot n for the physical function, the n-th slot mapped to a virtual one. -/
def State.pageSlot (s : State) (f : Fin 17) (page : Nat) : Option SlotId :=
  if f = 0 then
    if h : page < 64 then (if (s.slot ⟨page, h⟩).bound then some ⟨page, h⟩ else none) else none
  else if 16 ≤ page then none
  else ((List.finRange 64).filter fun n => (s.slot n).bound && (s.slot n).fnId == f)[page]?

/-- NOTIFY (R46): the wake bit is set, and counter-wait packets read their counters again (R40). -/
def execNotify (fn : Fin 17) (page : Nat) (s : State) : Out :=
  .next (
    if !s.dev.ready then s
    else
      match s.pageSlot fn page with
      | none => s
      | some n =>
        if (s.fn (s.slot n).fnId).resetting then s
        else (s.modSlot n fun q => { q with wake := true }).readCounters (s.counterWaits n))

/-! Completion (R43). -/

/-- Whether the work of a packet is done: a launch or kill when its launch is gone, an indirect packet when every
packet of its buffer has completed. -/
def State.packetDone (s : State) (r : Running) : Bool :=
  let gone := match r.target with | some p => (s.pad? p).isNone | none => false
  match pkKind r.words with
  | 1 => r.done || gone
  | 3 => r.opened && (s.buffers.all fun b => b.k != r.k || b.left == 0) && (s.runs.all fun x => x.parent != some r.k) &&
      s.slots.toList.all fun q => match q.taken with | some t => t.parent != some r.k | none => true
  | 6 => r.done || gone
  | _ => r.done

/-- PACKET_COMPLETION (R43): a release at system scope writes back what its owner's stores to nalloc pages have made
dirty (R287, R294), every other write having been performed already; then the counter at sig gains 1, and the vector is
sent. -/
def execPacketCompletion (n : SlotId) (k : Nat) (s : State) : Out :=
  .next (
    match (s.slot n).running.find? fun r => r.k = k with
    | none => s
    | some r =>
      if !s.packetDone r then s
      else
        let s := State.modSlot { s with buffers := s.buffers.filter fun b => b.k != k } n fun q =>
          { q with running := q.running.filter fun x => x.k != k }
        let s := if pkRel r.words = 2 then s.writeBacks r.owner else s
        let s := if pkSig r.words = 0 then s else s.addVa n r.owner (pkSig r.words) 1
        if !pkMsi r.words then s
        else if vectors r.fn ≤ pkVec r.words then s.warn n
        else s.msix r.fn (pkVec r.words))

end Sys2Proof.Machine
end

