-- ==== Sys2Proof/Machine/Arbitration.lean ====
section
/-!
DEFINITION. Arbitration of tile time and loader time (R49 to R51): deficits, the order of what waits, and use.
-/
namespace Sys2Proof.Machine

/-- Use of a function in the round, in tile-µs. -/
def Fn.used (f : Fn) : Nat := f.use.toList.sum

/-- The sum that shares are taken out of: 256, or their sum where it is more (R51). -/
def State.shareSum (s : State) : Nat := max 256 (s.fns.toList.map fun f => f.share.toNat).sum

/-- A function's deficit times the sum of R51: share × 384 × round − use × sum (R49). -/
def State.deficit (s : State) (f : Fin 17) : Int :=
  ((s.fn f).share.toNat * 384 * s.dev.round.toNat : Nat) - ((s.fn f).used * s.shareSum : Nat)

/-- What waits for tiles: a launch taken at the head of its queue, or a curtained paddock (R50). -/
structure Waiter where
  fn : Fin 17
  proc : Fin 64
  cls : Nat
  prio : Nat
  slot : SlotId
  cols : Nat
  rows : Nat
  waited : Nat
  pad : Option Nat
deriving DecidableEq, Repr

/-- Whether a comes before b: larger deficit, lower ratio of use to weight, class, priority, slot (R49, R50). The rules
do not order two functions of equal deficit, two processes of equal ratio, or a curtained paddock and a launch of one
slot: the lower function number, the lower process number and the curtained paddock come first (log 30). -/
def State.before (s : State) (a b : Waiter) : Bool :=
  let da := s.deficit a.fn
  let db := s.deficit b.fn
  let ratio (x y : Waiter) : Nat := ((s.fn x.fn).use[x.proc]) * ((s.fn y.fn).wt[y.proc]).toNat
  if da ≠ db then db < da
  else if a.fn ≠ b.fn then a.fn < b.fn
  else if ratio a b ≠ ratio b a then ratio a b < ratio b a
  else if a.proc ≠ b.proc then a.proc < b.proc
  else if a.cls ≠ b.cls then a.cls < b.cls
  else if a.prio ≠ b.prio then b.prio < a.prio
  else if a.slot ≠ b.slot then a.slot < b.slot
  else match a.pad, b.pad with
    | some x, some y => x ≤ y
    | some _, none => true
    | none, some _ => false
    | none, none => true

def State.insertWaiter (s : State) (w : Waiter) : List Waiter → List Waiter
  | [] => [w]
  | x :: r => if s.before w x then w :: x :: r else x :: s.insertWaiter w r

def State.sortWaiters (s : State) : List Waiter → List Waiter
  | [] => []
  | w :: r => s.insertWaiter w (s.sortWaiters r)

/-- The launches that wait for tiles: taken, their barrier met, not refused and not yet placed, and their function not being
reset (R53). -/
def State.waitingLaunches (s : State) : List Waiter :=
  (List.finRange 64).filterMap fun n =>
    let q := s.slot n
    match q.taken with
    | some t =>
      if pkKind t.words = 1 && t.refused.isNone && !q.halted && !(s.fn q.fnId).resetting && s.barrierMet t &&
          (s.placedFor t).isNone then
        some ⟨q.fnId, Fin.ofNat 64 q.proc.toNat, q.cls.toNat, q.prio.toNat, n, pkCols t.words, pkRows t.words, t.waited, none⟩
      else none
    | none => none

/-- A paddock as one that waits, under the class and priority that its queue had when it was placed (log 89). -/
def Paddock.waiter (p : Paddock) : Waiter :=
  ⟨p.fn, p.proc, p.cls, p.prio, p.slot, p.cols, p.rows, p.waited, some p.pid⟩

/-- The drover keeps the paddocks of an owner curtained while a page of the owner is being converted (R80). -/
def State.keepsCurtained (s : State) (o : OwnerTag) : Bool := s.mem.converting.any fun x => x.1 == o

/-- What waits for tiles, in order (R50). -/
def State.waiters (s : State) : List Waiter :=
  s.sortWaiters (s.waitingLaunches ++
    (s.pads.filter fun p => p.phase == .curtained && !s.keepsCurtained p.owner).map Paddock.waiter)

/-- The launch that loader time goes to: of those that have begun and not loaded, the first in the order of R49 and R50
(R82). -/
def State.nextLoad (s : State) : Option Nat :=
  ((s.sortWaiters ((s.pads.filter fun p => p.phase == .loading && s.begun p).map Paddock.waiter)).head?).bind (·.pad)

/-- Tile-µs counted to a process of a function (R49). -/
def Fn.charge (f : Fn) (proc : Fin 64) (n : Nat) : Fn := { f with use := f.use.set proc (f.use[proc] + n) }

/-- A paddock gives its tiles back before use is counted again (R49). -/
def State.noteLeft (s : State) (p : Paddock) : State :=
  s.modFn p.fn fun f => { f with left := f.left ++ [(p.proc, p.cols * p.rows)] }

/-- A time that the events do not state: of at most us µs (log 5). -/
def State.freshTime (s : State) (us : Nat) : Nat × State := let (w, s) := s.freshWord; (w.toNat % (us + 1), s)

/-- The use of what gave its tiles back since use was last counted, us µs ago. -/
def State.countLeft (s : State) (us : Nat) (f : Fin 17) : State :=
  let s' := (s.fn f).left.foldl (fun s x => let (v, s) := s.freshTime us; s.modFn f (·.charge x.1 (v * x.2))) s
  s'.modFn f fun f => { f with left := [] }

/-- Use counted to the functions and processes, us µs after it was last counted (R49): of paddocks that hold tiles, and
of those that have given them back since. -/
def State.countUse (s : State) (us : Nat) : State :=
  let s := (List.finRange 17).foldl (fun s f => s.countLeft us f) s
  let s := s.pads.foldl (fun s p =>
    if p.phase = .curtained ∨ p.image.isSome then s
    else
      let (v, s) := if p.part then s.freshTime us else (us, s)
      s.modFn p.fn (·.charge p.proc (v * (p.cols * p.rows)))) s
  { s with pads := s.pads.map fun p => { p with part := false } }

end Sys2Proof.Machine
end

