-- ==== Sys2Proof/Machine/Loader.lean ====
section
/-!
DEFINITION. The loader (R7 to R31, R82 to R87): the container, its signatures and digests, relocations, the task
graph, the launch data, and a paddock's tiles made ready; graph edits (R23, R41).
-/
namespace Sys2Proof.Machine

/-! Bytes and words. -/

/-- n bytes at an offset of a byte string, little-endian (R3). -/
def fieldAt (b : List Byte) (off n : Nat) : Nat := ofBytes ((b.drop off).take n)

/-- n words of a byte string. -/
def wordsOf : Nat → List Byte → List Word
  | 0, _ => []
  | n + 1, b => BitVec.ofNat 64 (ofBytes (b.take 8)) :: wordsOf n (b.drop 8)

/-- Consecutive parts of a list. -/
def partsOf {α : Type} (n : Nat) : Nat → List α → List (List α)
  | 0, _ => []
  | k + 1, l => l.take n :: partsOf n k (l.drop n)

/-- An instruction store with these words from offset 0 (R86). -/
def storeOf (ws : List Word) : Sparse Word := ((List.range ws.length).zip ws).filter fun p => p.2 != 0

/-- A digest as its 32 bytes (R84; log 7). -/
def digestBytes (d : BitVec 256) : List Byte := bytesOf 32 d.toNat

/-- A := SM3(A ‖ D) (R84). -/
def extend (a d : BitVec 256) : BitVec 256 := Config.sm3 (digestBytes a ++ digestBytes d)

/-- Bytes written by the loader at a virtual address, whatever the rights of its leaves (R10). -/
def State.place (s : State) (o : OwnerTag) (va : Nat) (data : List Byte) : State :=
  s.writeThrough (fun _ => true) o va data

/-! The container (R7 to R9, R11). -/

/-- A segment-table entry (R8). -/
structure Segment where
  kind : Nat
  rights : Nat
  foff : Nat
  flen : Nat
  vaddr : Nat
  msize : Nat
  entry : List Byte
deriving DecidableEq, Repr

def Segment.parse (b : List Byte) : Segment :=
  ⟨fieldAt b 0 1, fieldAt b 1 1, fieldAt b 8 8, fieldAt b 0x10 8, fieldAt b 0x18 8, fieldAt b 0x20 8, b⟩

/-- Kinds placed in the paddock's address space (R9). -/
def Segment.placed (g : Segment) : Bool := g.kind == 1 || g.kind == 2 || g.kind == 3 || g.kind == 5

/-- What R8, R9 and R11 ask of one entry. -/
def Segment.ok (g : Segment) (length : Nat) : Bool :=
  1 ≤ g.kind && g.kind ≤ 6 && g.rights < 4 && fieldAt g.entry 2 6 == 0 && fieldAt g.entry 0x28 24 == 0 &&
  g.foff % 64 == 0 && g.vaddr % 0x10000 == 0 && g.flen ≤ g.msize && g.foff + g.flen ≤ length &&
  (g.kind != 1 || (g.msize ≤ 0x20000 && g.rights == 1)) && (g.kind != 3 || g.rights == 1) &&
  (g.kind != 5 || (g.rights == 1 && g.msize % 8 == 0)) && (g.kind != 6 || g.flen % 16 == 0)

/-- No two placed ranges meet (R11). -/
def rangesApart : List Segment → Bool
  | [] => true
  | g :: r => (r.all fun x => g.vaddr + g.msize ≤ x.vaddr || x.vaddr + x.msize ≤ g.vaddr || g.msize == 0 || x.msize == 0) &&
      rangesApart r

def countKind (l : List Segment) (k : Nat) : Nat := (l.filter fun g => g.kind == k).length

/-- The header (R7) and the segment table (R8, R9). -/
def containerOk (hdr : List Byte) (segs : List Segment) : Bool :=
  let cols := fieldAt hdr 0x18 1
  let rows := fieldAt hdr 0x19 1
  let scenes := fieldAt hdr 0x1A 2
  fieldAt hdr 0 4 == 0x4C434E46 && fieldAt hdr 4 2 == 1 && fieldAt hdr 6 2 == 0 &&
  1 ≤ fieldAt hdr 8 2 && fieldAt hdr 8 2 ≤ 64 && fieldAt hdr 0xA 6 == 0 && fieldAt hdr 0x1C 4 == 0 &&
  cols ≤ 24 && rows ≤ 16 && (cols == 0) == (rows == 0) && scenes ≤ 256 && (cols != 0 || scenes == 0) &&
  (segs.all fun g => g.ok (fieldAt hdr 0x10 8)) && countKind segs 1 == 1 && countKind segs 2 ≤ 48 &&
  countKind segs 3 ≤ 48 && countKind segs 4 == 1 && countKind segs 5 ≤ 1 && countKind segs 6 ≤ 1 &&
  rangesApart (segs.filter Segment.placed)

/-! The task graph (R16 to R18, R20, R22). -/

/-- A node of a launch before it starts (R19). -/
def GNode.of (w0 w1 w2 : Word) : GNode := ⟨w0, w1, w2, [], .pending, none, false, false⟩

/-- The fields of a node record (R17, R22); `size` is the code segment's msize. Where a node has no incoming edges, no
rule says what its first-edge index may be: any value is accepted (log 85). An entry whose syllable begins in the code
segment is taken to lie in it, also where msize ends within the syllable, of which R22 does not speak (log 116). -/
def GNode.formed (n : GNode) (j nodes edges size : Nat) : Bool :=
  let k := n.kind
  let noCond := !n.dsrc && n.cword == 0 && n.cbit == 0
  k ≤ 3 && fld n.w0.toNat 0 6 == 0 && fld n.w1.toNat 24 40 == 0 && n.smask != 0 &&
  (n.edges == 0 || n.first + n.edges ≤ edges) &&
  (if k = 0 then n.cmask != 0 && n.entry * 8 < size else n.cmask == 0 && n.entry == 0) &&
  (if k = 1 ∨ k = 2 then !n.dsrc || (n.cword == 0 && n.cbit == 0) else noCond) &&
  (if k = 2 then 1 ≤ n.blen && j + n.blen < nodes else n.blen == 0)

/-- The node whose range holds edge k, when exactly one does (R18). -/
def edgeOwner (nodes : List GNode) (k : Nat) : Option Nat :=
  match (List.range nodes.length).filter fun j =>
    match nodes[j]? with | some n => n.first ≤ k && k < n.first + n.edges | none => false with
  | [j] => some j
  | _ => none

/-- Nodes with an order source left are left; a graph without a cycle empties (R22). The fuel is the node count. -/
def acyclic (edges : List (Nat × Nat)) : Nat → List Nat → Bool
  | _, [] => true
  | 0, _ :: _ => false
  | f + 1, l => acyclic edges f (l.filter fun n => edges.any fun e => e.2 == n && l.contains e.1)

/-- Node j lies in the body of node w (R17). -/
def inBody (nodes : List GNode) (w j : Nat) : Bool :=
  match nodes[w]? with
  | some n => n.kind == 2 && w < j && j ≤ w + n.blen
  | none => false

/-- The rules of R20 and R22 on one edge to node b. -/
def edgeOk (nodes : List GNode) (e : GEdge) (b : Nat) : Bool :=
  let a := e.from_
  let branching := match nodes[a]? with | some n => n.kind == 1 || n.kind == 2 | none => false
  a < nodes.length && fld e.rec_.toNat 22 2 ≤ 1 && fld e.rec_.toNat 0 21 == 0 && (!e.pol || (branching && e.order)) &&
  (List.range nodes.length).all fun w =>
    (!(inBody nodes w b && !inBody nodes w a && e.order) || (a == w && e.pol)) && !(inBody nodes w a && !inBody nodes w b)

/-- The checks of R22 on a graph. -/
def graphOk (nodes : List GNode) (edges : List GEdge) (size : Nat) : Bool :=
  let js := List.range nodes.length
  let owned := (List.range edges.length).filterMap fun k =>
    match edges[k]?, edgeOwner nodes k with | some e, some b => some (e, b) | _, _ => none
  1 ≤ nodes.length && nodes.length ≤ 256 && edges.length ≤ 1024 &&
  ((js.zip nodes).all fun p => p.2.formed p.1 nodes.length edges.length size) &&
  owned.length == edges.length && (owned.all fun p => edgeOk nodes p.1 p.2) &&
  (js.all fun w => js.all fun j =>
    match nodes[w]?, nodes[j]? with
    | some a, some b => !(inBody nodes w j && b.kind == 2) || j + b.blen ≤ w + a.blen
    | _, _ => true) &&
  acyclic ((owned.filter fun p => p.1.order).map fun p => (p.1.from_, p.2)) nodes.length js

/-- A graph segment (R16): its nodes and edges, when it holds what its header says. Of a segment whose flen and msize
differ, no rule says which bytes are the graph: the flen bytes of the container are read, a graph that they do not hold
whole is refused, and bytes after it are ignored (log 86). -/
def parseGraph (b : List Byte) (size : Nat) : Option (List GNode × List GEdge) :=
  let n := fieldAt b 4 2
  let m := fieldAt b 6 2
  if fieldAt b 0 4 ≠ 0x48505247 ∨ fieldAt b 8 8 ≠ 0 ∨ b.length < 16 + 32 * n + 4 * m then none
  else
    let recs := partsOf 32 n (b.drop 16)
    let nodes := recs.map fun r =>
      GNode.of (BitVec.ofNat 64 (fieldAt r 0 8)) (BitVec.ofNat 64 (fieldAt r 8 8)) (BitVec.ofNat 64 (fieldAt r 16 8))
    let edges := (partsOf 4 m (b.drop (16 + 32 * n))).map fun r => (⟨BitVec.ofNat 32 (ofBytes r), .undecided⟩ : GEdge)
    if (recs.all fun r => fieldAt r 24 8 == 0) && graphOk nodes edges size then some (nodes, edges) else none

/-! Graph edits (R23, R41). -/

/-- The record for a node among some. -/
def recFor (recs : List (Nat × List Word)) (j : Nat) : Option (List Word) := (recs.find? fun r => r.1 = j).map (·.2)

/-- Records replaced; none where one passes the node count or its word 3 is not zero. -/
def editNodes (nodes : List GNode) (recs : List (Nat × List Word)) : Option (List GNode) :=
  if recs.any fun r => nodes.length ≤ r.1 || r.2.getD 3 0 != 0 then none
  else
    some ((nodes.zip (List.range nodes.length)).map fun p =>
      match recFor recs p.2 with
      | some r => GNode.of (r.getD 0 0) (r.getD 1 0) (r.getD 2 0)
      | none => p.1)

/-- The digest of new records (R23). -/
def recsDigest (recs : List (Nat × List Word)) : BitVec 256 :=
  Config.sm3 ((recs.map fun r => (r.2.map fun w => bytesOf 8 w.toNat).flatten).flatten)

/-- The kept edits applied in order to a graph (R23): the nodes, the attestation record, and whether one was
discarded. -/
def applyKept (edges : List GEdge) (size : Nat) (acc : List GNode × BitVec 256 × Bool) (e : KeptEdit) :
    List GNode × BitVec 256 × Bool :=
  match editNodes acc.1 e.recs with
  | some ns => if graphOk ns edges size then (ns, extend acc.2.1 (recsDigest e.recs), acc.2.2) else (acc.1, acc.2.1, true)
  | none => (acc.1, acc.2.1, true)

/-! Launch data (R25 to R29). -/

/-- A router-table entry (R27, R28). -/
def routerOk (e : Nat) : Bool :=
  let omask := fld e 59 5
  let inp := fld e 56 3
  let count := fld e 24 16
  let wline := fld e 14 10
  if omask = 0 then e == 0
  else inp ≤ 4 && 1 ≤ count && fld e 0 14 == 0 && !bit e (63 - inp) &&
    (if bit e 63 then wline + count ≤ 1024 else wline == 0)

/-- The pieces of launch data with their lengths (R31, status 0x09). -/
def launchData (ws : List Word) : List (Nat × Nat) :=
  let n := pkCols ws * pkRows ws
  let opt (a len : Nat) : Nat × Nat := if a = 0 then (0, 0) else (a, len)
  [opt (pkF ws 0x28 8) ((n + 1) / 2), (pkF ws 0x30 8, pkClen ws), opt (pkF ws 0x50 8) 256,
    (pkF ws 0x40 8, pkNscene ws * n * pkNent ws * 8), (pkF ws 0x48 8, pkNlate ws * 8)]

/-- A frame of the late pool (R29). -/
def lateOk (m : MemSys) (o : OwnerTag) (a : Nat) : Bool :=
  a < 2 ^ 48 && a % 2 ^ 16 == 0 && m.place a == .device && m.frameOwner (a / 2 ^ 16) == o

/-! The steps of R82. -/

/-- A launch under way: the state, the attestation record, the code segment, and the two segments that are not
placed. -/
structure Loading where
  s : State
  attest : BitVec 256
  code : CodeSeg
  graph : List Byte
  reloc : List Byte
deriving DecidableEq, Repr

/-- A step that fails answers its status and how far the launch has come. -/
abbrev LoadStep (α : Type) := Except (Nat × Loading) α

def lbase (p : Paddock) : Nat := pkF p.pkt 0x18 8

/-- The loader takes the host halves of what it reads (R293, R345). -/
def State.holdHeader (s : State) (p : Paddock) : State :=
  let cont := pkF p.pkt 0x10 8
  let s := s.holdVa p.owner cont 128
  s.holdVa p.owner (cont + 128) (128 * fieldAt (s.mem.readVa p.owner cont 128) 8 2)

def State.holdData (s : State) (p : Paddock) : State :=
  ((launchData p.pkt).filter fun d => d.2 != 0).foldl (fun s d => s.holdVa p.owner d.1 d.2) s

/-- Step 1: the header and segment table (R7 to R9, R11). -/
def loadHeader (p : Paddock) (l : Loading) : LoadStep (List Byte × List Segment) :=
  let cont := pkF p.pkt 0x10 8
  let m := l.s.mem
  let hdr := m.readVa p.owner cont 128
  let n := fieldAt hdr 8 2
  let length := fieldAt hdr 0x10 8
  if !m.mapped p.owner true false cont 1 || 2 ^ 55 < length || !m.mapped p.owner true false cont (max length (128 + 128 * n)) then
    .error (1, l)
  else
    let segs := (partsOf 128 n (m.readVa p.owner (cont + 128) (128 * n))).map Segment.parse
    if containerOk hdr segs then .ok (hdr, segs) else .error (1, l)

/-- The header digest (R7, R84). -/
def headerDigest (hdr : List Byte) (segs : List Segment) : BitVec 256 :=
  Config.sm3 (hdr.take 0x40 ++ (segs.map (·.entry)).flatten)

/-- The range of a placed segment is mapped by valid leaves of the owner (R83). -/
def MemSys.leavesOver (m : MemSys) (o : OwnerTag) (va n : Nat) : Bool :=
  n == 0 || (List.range ((va + n - 1) / 2 ^ 16 + 1 - va / 2 ^ 16)).all fun k =>
    match m.walk o ((va / 2 ^ 16 + k) * 2 ^ 16) with | .leaf _ _ _ => true | _ => false

/-- The tiles of a paddock by rank. -/
def Paddock.tiles (p : Paddock) : List TileId := (List.range (p.cols * p.rows)).map p.tile

def State.setStores (s : State) (p : Paddock) (m : Sparse Word) : State :=
  p.tiles.foldl (fun s t => s.modTile t fun T => { T with mem := { T.mem with store := m } }) s

/-- Whether a signature over a digest verifies under a signer (R7, R8). -/
abbrev Verifier := (signer digest : BitVec 256) → (signature : BitVec 512) → Bool

/-- Step 3 for one segment (R10, R83, R84, R86). -/
def loadSegment (verify : Verifier) (p : Paddock) (hdr : List Byte) (l : Loading) (g : Segment) : LoadStep Loading :=
  let va := lbase p + g.vaddr
  if g.placed && !l.s.mem.leavesOver p.owner va g.msize then .error (1, l)
  else
    let s := l.s.holdVa p.owner (pkF p.pkt 0x10 8 + g.foff) g.flen
    let data := s.mem.readVa p.owner (pkF p.pkt 0x10 8 + g.foff) g.flen
    let full := data ++ List.replicate (g.msize - g.flen) 0
    let s := if g.placed then s.place p.owner va full else s
    let d := Config.sm3 (data ++ g.entry.take 0x28)
    let s := if g.kind = 1 then s.setStores p (storeOf (wordsOf ((g.msize + 7) / 8) full)) else s
    let l := { l with
      s,
      code := if g.kind = 1 then ⟨va, g.flen, g.msize, g.entry.take 0x28, d⟩ else l.code,
      graph := if g.kind = 4 then data else l.graph,
      reloc := if g.kind = 6 then data else l.reloc }
    if verify (BitVec.ofNat 256 (fieldAt hdr 0x20 32)) d (BitVec.ofNat 512 (fieldAt g.entry 0x40 64)) then
      .ok { l with attest := extend l.attest d }
    else .error (2, l)

/-- Step 4 for one record (R12, R13). -/
def relocate (p : Paddock) (segs : List Segment) (l : Loading) (r : List Byte) : LoadStep Loading :=
  let w := fieldAt r 0 8
  let toff := fld w 0 44
  match segs[fld w 50 6]?, segs[fld w 44 6]? with
  | some t, some b =>
    if fld w 56 8 ≠ 1 ∨ !(t.kind == 2 || t.kind == 3 || t.kind == 5) ∨ !b.placed ∨ toff % 8 ≠ 0 ∨ t.msize < toff + 8 then
      .error (3, l)
    else
      .ok { l with s := l.s.place p.owner (lbase p + t.vaddr + toff) (bytesOf 8 (lbase p + b.vaddr + fieldAt r 8 8)) }
  | _, _ => .error (3, l)

/-- Step 6 (R24, R28, R29, R31). -/
def checkData (p : Paddock) (hdr : List Byte) (l : Loading) : LoadStep Unit :=
  let ws := p.pkt
  let m := l.s.mem
  let n := p.cols * p.rows
  let tables := wordsOf (p.nscene * n * p.nent) (m.readVa p.owner (pkF ws 0x40 8) (p.nscene * n * p.nent * 8))
  let pool := wordsOf (pkNlate ws) (m.readVa p.owner (pkF ws 0x48 8) (pkNlate ws * 8))
  if !(launchData ws).all fun d => m.mapped p.owner true false d.1 d.2 then .error (9, l)
  else if fieldAt hdr 0x18 1 ≠ 0 ∧
      !(fieldAt hdr 0x18 1 == p.cols && fieldAt hdr 0x19 1 == p.rows && fieldAt hdr 0x1A 2 == p.nscene) then .error (5, l)
  else if bit (pkLead ws) 15 ∧ n ≤ fld (pkLead ws) 2 9 then .error (5, l)
  else if 4096 < p.nscene * p.nent ∨ !tables.all fun e => routerOk e.toNat then .error (6, l)
  else if !pool.all fun a => lateOk m p.owner a.toNat then .error (7, l)
  else .ok ()

/-- The accesses that stand on a leaf's frames for an owner, by tile and number (R167). -/
def State.standingOn (s : State) (o : OwnerTag) (e : Nat) (large : Bool) : List (TileId × Nat) :=
  let size := if large then 2 ^ 29 else 2 ^ 16
  let first := leafFrame e * 2 ^ 16
  (List.finRange 384).flatMap fun t => ((s.tile t).accs.filter fun a =>
    a.owner == o && a.pieces.any fun p => !p.done && first ≤ p.pa && p.pa < first + size).map fun a => (t, a.id)

/-- Step 7 (R85): the rights of every leaf of a segment's range, and the invalidation of each page. The list gains the
accesses whose end completes the invalidations (R167). -/
def markSegment (p : Paddock) (acc : State × List (TileId × Nat)) (g : Segment) : State × List (TileId × Nat) :=
  let va := lbase p + g.vaddr
  if !g.placed ∨ g.msize = 0 then acc
  else (List.range ((va + g.msize - 1) / 2 ^ 16 + 1 - va / 2 ^ 16)).foldl (fun acc k =>
    let (s, l) := acc
    let a := (va / 2 ^ 16 + k) * 2 ^ 16
    match s.mem.walk p.owner a with
    | .leaf e large at_ =>
      let r := pack [((bit g.rights 0).toNat, 0), ((bit g.rights 1).toNat, 1), ((g.kind == 1).toNat, 2)]
      ((s.writeMem at_ (bytesOf 8 (setFld e 2 3 r))).invalidate p.owner a large, l ++ s.standingOn p.owner e large)
    | _ => acc) acc

/-- rt.bnd of a rank (R60). -/
def Paddock.boundary (p : Paddock) (rank : Nat) : Boundary :=
  let c := rank % p.cols
  let r := rank / p.cols
  let north := 0 < r || p.rows == 16
  let east := c + 1 < p.cols || p.cols == 24
  let south := r + 1 < p.rows || p.rows == 16
  let west := 0 < c || p.cols == 24
  { valid := true, owner := p.owner, ocol := BitVec.ofNat 5 p.ocol, orow := BitVec.ofNat 4 p.orow,
    cols := BitVec.ofNat 5 p.cols, rows := BitVec.ofNat 5 p.rows,
    gate := BitVec.ofNat 4 (pack [(north.toNat, 3), (east.toNat, 2), (south.toNat, 1), (west.toNat, 0)]) }

/-- Steps 8 and 9 at one tile (R26, R27, R114, R121, R277, R297, R356): constants, banks, boundary, router table,
prompter, contexts at their launch values. -/
def Tile.start (T : Tile) (p : Paddock) (rank : Nat) (consts : List Byte) (router : Sparse Word) (nodes : List GNode)
    (edges : List GEdge) (cond : Vector (BitVec 32) 64) (stage : Nat) : Tile :=
  let keep := T.mem.spad.filter fun c => !inConst c.1
  let spad := Sparse.puts 0 keep ((tab (min consts.length 0x10000) fun j => 0xE0000 + j).zip consts)
  let bankUnits (u : Nat) : Bool := 2 ^ 17 ≤ u
  { Tile.reset with
    mem := { T.mem with
      spad := spad, bank0 := [], bank1 := [], stage1 := false, router := router, bnd := p.boundary rank,
      poison := T.mem.poison.filter fun u => !bankUnits u && !inConst (8 * u) },
    pad := some p.pid, serial := T.serial,
    pr := ⟨nodes, edges, cond, [], false⟩,
    stage := BitVec.ofNat 4 stage,
    lead := if bit (pkLead p.pkt) 15 ∧ fld (pkLead p.pkt) 2 9 = rank then some (Fin.ofNat 4 (fld (pkLead p.pkt) 0 2)) else none }

/-- Steps 8 and 9 (R82). -/
def startTiles (p : Paddock) (nodes : List GNode) (edges : List GEdge) (s : State) : State :=
  let ws := p.pkt
  let s := s.holdData p
  let m := s.mem
  let n := p.cols * p.rows
  let consts := m.readVa p.owner (pkF ws 0x30 8) (pkClen ws)
  let condB := if pkF ws 0x50 8 = 0 then [] else m.readVa p.owner (pkF ws 0x50 8) 256
  let cond : Vector (BitVec 32) 64 := Vector.ofFn fun (k : Fin 64) => BitVec.ofNat 32 (fieldAt condB (4 * k.val) 4)
  let smap := if pkF ws 0x28 8 = 0 then [] else m.readVa p.owner (pkF ws 0x28 8) ((n + 1) / 2)
  let tables := wordsOf (p.nscene * n * p.nent) (m.readVa p.owner (pkF ws 0x40 8) (p.nscene * n * p.nent * 8))
  (List.range n).foldl (fun s k =>
    let router := ((List.range p.nscene).map fun sc => (tables.drop ((sc * n + k) * p.nent)).take p.nent).flatten
    s.modTile (p.tile k) fun T =>
      T.start p k consts (storeOf router) nodes edges cond (fld (fieldAt smap (k / 2) 1) (4 * (k % 2)) 4)) s

/-- A tile that its paddock has left: it belongs to no paddock, nothing of it acts, and what it holds stays until the
next launch or flash clear (R341). -/
def Tile.free (T : Tile) : Tile :=
  { T with
    pad := none, run := none, lead := none, stopReq := false, mem := { T.mem with bnd := Boundary.reset },
    ctxs := T.ctxs.map fun c =>
      { c with
        sel := .idle, held := false, flight := [], tail := none, pending := none, fault := none, marks := none,
        owed := [], ask := none },
    accs := [], walks := [], queues := Vector.replicate 4 [], seqs := T.seqs.map fun z => { z with run := none },
    fences := [], mq := [], e5 := [], streams := Vector.replicate 4 MergeStream.closed, merges := [],
    pr := Prompter.empty }

/-- The tiles of a paddock handed back. -/
def State.freeTiles (s : State) (p : Paddock) : State := p.tiles.foldl (fun s t => s.modTile t Tile.free) s

/-- A paddock is gone: its tiles are handed back, and use keeps count of it (R49). -/
def State.dropPad (s : State) (p : Paddock) : State :=
  let s := if p.image.isSome then s else (s.freeTiles p).noteLeft p
  { s with pads := s.pads.filter fun k => k.pid != p.pid, calls := s.calls.filter fun c => c.pad != p.pid }

/-- A launch that fails a check (R31, R82, R86): its record, its stores cleared, its tiles handed back. -/
def State.refuse (s : State) (p : Paddock) (status : Nat) (attest : BitVec 256) : State :=
  let s := (s.writeRecord p.slot p.owner (pkCrec p.pkt) (recordBytes status ⟨status, 0, 0, 0, 0⟩ 0 0 attest)).remember p.slot
    ⟨pkTag p.pkt, p.owner, status, attest⟩
  (s.setStores p []).dropPad p

/-- Steps 2 to 7 of R82 for a container with this header and these segments, signatures judged by a verifier. Kept edits
that step 5 applies are spent, even where step 6 then refuses the launch (log 87). -/
def State.loadFrom (verify : Verifier) (s : State) (p : Paddock) (hdr : List Byte) (segs : List Segment) : LoadStep State :=
  let l : Loading := ⟨s, 0, ⟨0, 0, 0, [], 0⟩, [], []⟩
  let d := headerDigest hdr segs
  if !verify (BitVec.ofNat 256 (fieldAt hdr 0x20 32)) d (BitVec.ofNat 512 (fieldAt hdr 0x40 64)) then .error (2, l)
  else
    match segs.foldlM (loadSegment verify p hdr) { l with attest := extend 0 d } with
    | .error e => .error e
    | .ok l =>
      match (partsOf 16 (l.reloc.length / 16) l.reloc).foldlM (relocate p segs) l with
      | .error e => .error e
      | .ok l =>
        match parseGraph l.graph l.code.msize with
        | none => .error (4, l)
        | some (nodes, edges) =>
          let mine (e : KeptEdit) : Bool := e.queue == p.queue && e.tag == pkTag p.pkt
          let (nodes, attest, bad) := (l.s.kept.filter mine).foldl (applyKept edges l.code.msize) (nodes, l.attest, false)
          let s := State.modSlot { l.s with kept := l.s.kept.filter fun e => !mine e } p.slot fun q => { q with warn := q.warn || bad }
          let l := { l with s := s.holdData p, attest }
          match checkData p hdr l with
          | .error e => .error e
          | .ok () =>
            let (s, wait) := segs.foldl (markSegment p) (l.s, [])
            let pool := (wordsOf (pkNlate p.pkt) (l.s.mem.readVa p.owner (pkF p.pkt 0x48 8) (pkNlate p.pkt * 8))).map (·.toNat)
            .ok (s.modPad p.pid fun k => { k with loaded := some ⟨nodes, edges, attest, l.code, pool, wait⟩ })

/-- Steps 1 to 7 of R82, signatures judged by a verifier. -/
def State.loadBy (verify : Verifier) (s : State) (p : Paddock) : LoadStep State :=
  let s := s.holdHeader p
  match loadHeader p ⟨s, 0, ⟨0, 0, 0, [], 0⟩, [], []⟩ with
  | .error e => .error e
  | .ok (hdr, segs) => s.loadFrom verify p hdr segs

/-- Steps 1 to 7 of R82. -/
def State.load (s : State) (p : Paddock) : LoadStep State := s.loadBy Config.sm2Verify p

/-- An access has been performed whole, or is no more (R167). -/
def State.accessOver (s : State) (x : TileId × Nat) : Bool :=
  (s.tile x.1).accs.all fun a => a.id != x.2 || a.pieces.all (·.done)

/-- Steps 8 and 9 of R82, once the invalidations of step 7 have completed (R167). -/
def State.startLaunch (s : State) (pid : Nat) : State :=
  match s.pad? pid with
  | none => s
  | some p =>
    match p.loaded with
    | none => s
    | some l =>
      if !l.wait.all s.accessOver then s
      else
        let s := (startTiles p l.nodes l.edges s).modPad pid fun k =>
          { k with phase := .running, attest := l.attest, code := l.code, late := l.late, net := PadNet.empty, loaded := none }
        s.modPorts fun q => q.meet p.owner (pkTag p.pkt) pid (p.cols * p.rows)

/-- LAUNCH (R82): steps 1 to 9 for the launch that loader time goes to, or its refusal; one whose pages are marked goes
on with step 8 once it may. -/
def execLaunch (p : Nat) (s : State) : Out :=
  .next (
    match s.pad? p with
    | none => s
    | some k =>
      if k.phase ≠ .loading then s
      else if k.loaded.isSome then s.startLaunch p
      else if s.nextLoad ≠ some p then s
      else
        match s.load k with
        | .ok s' => s'.startLaunch p
        | .error (status, l) => l.s.refuse k status l.attest)

/-! GRAPH_EDIT (R23, R41). -/

/-- An edit of packet k waits at a node until its next transition (R23). -/
def GNode.hold (n : GNode) (k : Nat) (r : List Word) : GNode :=
  { n with edit := n.edit ++ [(k, r.getD 0 0, r.getD 1 0, r.getD 2 0)] }

/-- The records of packet k wait at their nodes (R23). -/
def Prompter.hold (pr : Prompter) (k : Nat) (recs : List (Nat × List Word)) : Prompter :=
  { pr with nodes := (pr.nodes.zip (List.range pr.nodes.length)).map fun (x : GNode × Nat) =>
      match recFor recs x.2 with
      | some r => x.1.hold k r
      | none => x.1 }

/-- The nodes as they will stand once every waiting edit is installed. -/
def Prompter.edited (pr : Prompter) : List GNode := pr.nodes.map fun n => let i := n.install; GNode.of i.w0 i.w1 i.w2

/-- A running launch's graph, from its rank 0 tile, in place or in its image. -/
def State.prompterOf (s : State) (p : Paddock) : Prompter :=
  match p.image with
  | some i => match i.tiles with | T :: _ => T.pr | [] => Prompter.empty
  | none => (s.tile (p.tile 0)).pr

/-- An edit made to a running launch (R23, R41): its records wait at every replica, and extend the attestation record. -/
def State.editLaunch (s : State) (p : Paddock) (e : KeptEdit) : State :=
  let s := (List.range (p.cols * p.rows)).foldl (fun s rank =>
    s.modRank p.pid rank fun T => { T with pr := T.pr.hold e.k e.recs }) s
  s.modPad p.pid fun q => { q with attest := extend q.attest (recsDigest e.recs), edits := q.edits ++ [e] }

/-- An edit kept with its queue: kept edits stand in the order in which their packets were taken (R23). -/
def insertKept (e : KeptEdit) : List KeptEdit → List KeptEdit
  | [] => [e]
  | x :: r => if e.k < x.k then e :: x :: r else x :: insertKept e r

/-- GRAPH_EDIT (R41): the records go to the oldest-begun running launch of the tag, or are kept with the queue. A launch
whose kill stands runs no more (log 83); one that is loading is waited for. -/
def execGraphEdit (n : SlotId) (k : Nat) (s : State) : Out :=
  .next (
    match s.running? n k 2 with
    | none => s
    | some r =>
      let first := pkF r.words 0x18 2
      let count := pkF r.words 0x1A 2
      let s := s.holdVa r.owner (pkF r.words 0x10 8) (32 * count)
      let words := partsOf 4 count (wordsOf (4 * count) (s.mem.readVa r.owner (pkF r.words 0x10 8) (32 * count)))
      let e : KeptEdit := ⟨k, r.queue, pkTag r.words, (tab count (first + ·)).zip words⟩
      if count = 0 ∨ 16 < count ∨ !s.mem.mapped r.owner true false (pkF r.words 0x10 8) (32 * count) then (s.warn n).done n k
      else
        match oldest ((s.launches r.queue (pkTag r.words)).filter fun p => p.killed.isNone) with
        | none => State.done { s with kept := insertKept e s.kept } n k
        | some p =>
          if p.phase = .loading then s
          else
            let pr := s.prompterOf p
            match editNodes pr.edited e.recs with
            | none => (s.warn n).done n k
            | some ns =>
              if !graphOk ns pr.edges p.code.msize then (s.warn n).done n k
              else (s.editLaunch p e).done n k)

end Sys2Proof.Machine
end

