-- ==== Sys2Proof/Machine/Place.lean ====
section
/-!
DEFINITION. Placement (R50, R59), flash clear (R341), the curtain and the green room (R328 to
R334), conversions (R80, R352, R354), kill (R338, R339) and completion (R335 to R337).
-/
namespace Sys2Proof.Machine

/-! Room (R57, R59). -/

/-- A tile that a paddock may be placed on: of no paddock, and neither absent nor withheld (R55, R343). -/
def State.tileFree (s : State) (t : TileId) : Bool :=
  (s.tile t).pad.isNone && !s.dev.absent.getLsbD t.val && !s.dev.held.getLsbD t.val

/-- The tiles of a rectangle. -/
def rectangle (ocol orow cols rows : Nat) : List TileId :=
  (List.range rows).flatMap fun r => (List.range cols).map fun c => tileOf ((orow + r) * 24 + ocol + c)

/-- The first origin whose rectangle is free, by rising row and then column (R59). -/
def findOrigin (free : TileId → Bool) (cols rows : Nat) : Option (Nat × Nat) :=
  (List.range (17 - rows)).findSome? fun r =>
    ((List.range (25 - cols)).find? fun c => (rectangle c r cols rows).all free).map fun c => (c, r)

/-! Flash clear (R341). -/

/-- A tile given to an owner's paddock: flash cleared when its last paddock was another owner's, or it had none. -/
def Tile.give (T : Tile) (o : OwnerTag) (pid : Nat) : Tile :=
  let T := if T.mem.lastOwner = some o then T else { Tile.reset with serial := T.serial }
  { T with pad := some pid, mem := { T.mem with lastOwner := some o } }

/-- A launch placed: its paddock holds its tiles, and loading waits for the packet to begin (R42, R82). -/
def State.placeLaunch (s : State) (w : Waiter) (t : Taken) (ocol orow : Nat) : State :=
  let pid := s.serial
  let p : Paddock :=
    { pid, owner := t.queue.owner, slot := w.slot, queue := t.queue, fn := w.fn, proc := w.proc,
      cls := w.cls, prio := w.prio, phase := .loading, ocol, orow, cols := w.cols, rows := w.rows,
      nscene := pkNscene t.words, nent := pkNent t.words, net := PadNet.empty, pkt := t.words, k := t.k,
      code := ⟨0, 0, 0, [], 0⟩, attest := 0, late := [], curtains := 0, killed := none, image := none, waited := 0,
      recorded := [], edits := [], part := false, loaded := none, due := false }
  let s := { s with serial := s.serial + 1, pads := s.pads ++ [p] }
  p.tiles.foldl (fun s x => s.modTile x fun T => T.give p.owner pid) s

/-! Phases 1 to 3 of a kill (R338). -/

/-- Phases 1 to 3 at a tile: everything its contexts, engines and prompter had to do is discarded. -/
def Tile.kill (T : Tile) : Tile :=
  { T with
    ctxs := T.ctxs.map fun c =>
      { c with
        sel := .stopped, held := true, flight := [], tail := none, pending := none, records := [], owed := [],
        ask := none },
    run := none, accs := [], walks := [], queues := Vector.replicate 4 [],
    seqs := T.seqs.map fun z => { z with run := none }, fences := [], mq := [], e5 := [],
    streams := Vector.replicate 4 MergeStream.closed, merges := [], pr := { T.pr with halted := true } }

/-- Phases 1 to 3 of R338: a write not yet performed is discarded, as R340 allows; the write-backs that the owner's writes
made due are done (R287). -/
def State.killTiles (s : State) (p : Paddock) : State :=
  let s := if p.image.isSome ∨ p.phase = .curtained then s else p.tiles.foldl (fun s t => s.modTile t Tile.kill) s
  let s := { s with calls := s.calls.filter fun c => c.pad != p.pid, faults := s.faults.filter fun f => f.pad != some p.pid }
  ((s.writeBacks p.owner).unbindPorts p.pid).modPad p.pid fun k => { k with phase := .killed, net := PadNet.empty }

/-! Resumption (R87, R334). -/

/-- A context goes on as its image says: stopped ones are ready, those a fault holds stay held. -/
def Ctx.resume (c : Ctx) : Ctx := if c.sel = .stopped ∧ !c.held then { c with sel := .ready } else c

/-- A saved tile on the tile of its rank in the new placement; unfinished link entries complete without effect
(R315). Which ready context the selector takes first is not stated: it counts on from the last that ran before the curtain
(log 72). -/
def Tile.restore (T : Tile) (old : Tile) (p : Paddock) (rank cycle : Nat) : Tile :=
  { T with
    mem := { T.mem with bnd := p.boundary rank, lastOwner := some p.owner }, pad := some p.pid,
    serial := max T.serial old.serial, run := none, gap := 0, past := 0, stopReq := false, sceneCycle := cycle,
    ctxs := T.ctxs.map Ctx.resume,
    queues := T.queues.map fun l => l.filter fun (e : CopyEntry) => !e.work.isLink }

/-- The instruction stores refilled from the placed pages, and whether the check passed (R87). -/
def State.refill (s : State) (p : Paddock) : Option (Sparse Word) :=
  let c := p.code
  if !s.mem.mapped p.owner true false c.va c.msize then none
  else
    let b := s.mem.readVa p.owner c.va c.msize
    if Config.sm3 (b.take c.flen ++ c.entry) = c.digest ∧ (b.drop c.flen).all (· == 0) then
      some (storeOf (wordsOf ((c.msize + 7) / 8) b))
    else none

/-- A frame goes back to the spill pool, and to owner 0 (R333, R35). -/
def State.returnFrame (s : State) (pa : Nat) : State :=
  let s := s.writeMem (s.mem.fot.toNat + pa / 2 ^ 16) [0]
  let s := s.writeMem (s.dev.spill.toNat + 8 * s.dev.spillN.toNat) (bytesOf 8 pa)
  { s with dev := { s.dev with spillN := s.dev.spillN + 1 } }

/-- The highest of n frames of the spill pool taken for an owner; a retired frame leaves the pool for no owner (R80,
R333, R343, R35). -/
def State.spillFrom (o : OwnerTag) : Nat → State → Option (Nat × State)
  | 0, _ => none
  | n + 1, s =>
    let pa := ofBytes (s.mem.readN (s.dev.spill.toNat + 8 * n) 8)
    let s := { s with dev := { s.dev with spillN := BitVec.ofNat 17 n } }
    if s.mem.retired.contains (pa / 2 ^ 16) then State.spillFrom o n s
    else some (pa, s.writeMem (s.mem.fot.toNat + pa / 2 ^ 16) [o])

/-- A frame of the spill pool taken for an owner. -/
def State.spillFrame (s : State) (o : OwnerTag) : Option (Nat × State) := State.spillFrom o s.dev.spillN.toNat s

/-- n frames, or none of them. -/
def State.spillFrames (o : OwnerTag) : Nat → State → Option (List Nat × State)
  | 0, s => some ([], s)
  | n + 1, s =>
    match s.spillFrame o with
    | none => none
    | some (pa, s) => (State.spillFrames o n s).map fun r => (pa :: r.1, r.2)

/-- The steps of R334 at an origin; the saved scene cycle is the first, and injects what starts in it (R299, R356). -/
def State.resumeAt (s : State) (p : Paddock) (i : Image) (ocol orow : Nat) : State :=
  let p := { p with ocol, orow, phase := .running, image := none, waited := 0, part := false }
  let s := i.frames.foldl State.returnFrame s
  let cycle := match i.tiles with | T :: _ => T.sceneCycle | [] => 0
  let s := ((List.range i.tiles.length).zip i.tiles).foldl (fun s x =>
    s.modTile (p.tile x.1) fun old => x.2.restore old p x.1 cycle) s
  let s := { s with pads := s.pads.map fun (k : Paddock) => if k.pid = p.pid then p else k }
  let s := s.modPorts fun q => if q.pad = some p.pid then q.lowered else q
  let s := s.holdVa p.owner p.code.va p.code.msize
  match s.refill p with
  | some m => p.tiles.foldl State.inject (s.setStores p m)
  | none => (s.modPad p.pid fun k => k.kill ⟨0x02, 0, 0, 0, 0⟩).killTiles p

/-- A curtained paddock resumed on the first origin that is free (R334). -/
def State.resumePad (s : State) (pid : Nat) : State :=
  match s.pad? pid with
  | some p =>
    match p.phase, p.image with
    | .curtained, some i =>
      match findOrigin s.tileFree p.cols p.rows with
      | some o => s.resumeAt p i o.1 o.2
      | none => s
    | _, _ => s
  | none => s

/-- The first of what waits, in the order of R50, whose shape fits in free tiles. -/
def State.firstFit (s : State) : Option Waiter :=
  s.waiters.find? fun w => (findOrigin s.tileFree w.cols w.rows).isSome

/-- RESUME (R334): a curtained paddock resumes where nothing before it in the order of R50 fits. -/
def execResume (p : Nat) (s : State) : Out :=
  .next (
    if s.firstFit.bind (·.pad) = some p then (s.resumePad p).modPad p fun k => { k with part := true } else s)

/-! Curtains (R315, R328, R329). -/

/-- The curtain request reaches a tile: every context but the running one stops at once (R328), and the matrix queue
stops under R271, at the group that a free word picks (log 5). -/
def Tile.curtain (T : Tile) (w : BitVec 64) : Tile :=
  let stop (c : Fin 4) (k : Ctx) : Ctx := if k.sel = .idle ∨ T.run = some c then k else k.stop
  Tile.stopMatrix { T with stopReq := true, past := 0, ctxs := Vector.ofFn fun c => stop c (T.ctx c) } w.toNat

/-- The curtain request reaches a tile of a paddock, and holds its unfinished link transfers (R315, R329). -/
def State.curtainTile (s : State) (t : TileId) : State :=
  let (w, s) := s.freshWord
  s.modTile t fun T => (T.curtain w).holdLinks [false, true] s.port

/-- A curtain of a running paddock begins, or waits until no domain is held (R73); of any other it does nothing (R329). -/
def State.startCurtain (s : State) (pid : Nat) : State :=
  match s.pad? pid with
  | some p =>
    if p.phase ≠ .running then s
    else if s.mem.doms.toList.any (·.hold) then s.modPad pid fun k => { k with due := true }
    else
      let s := s.modPad pid fun k => { k with phase := .curtaining }
      let s := p.tiles.foldl State.curtainTile s
      s.modPorts fun q => if q.pad = some pid then q.curtain else q
  | none => s

/-- CURTAIN (R329). -/
def execCurtain (p : Nat) (s : State) : Out := .next (s.startCurtain p)

/-! Conversion (R80, R352, R354). -/

/-- One unit less in a domain; at 0 the owner's unbacked lines of the domain are dropped (R80, R354). -/
def MemSys.lowerUnit (m : MemSys) (o : OwnerTag) (d : Fin 8) : MemSys :=
  let u := m.units o d - 1
  let m := m.setUnits o d u
  if u = 0 then m.dropDomain o d else m

/-- The page of an aperture frame written whole into a late frame, and the frame entered in the late map (R80, R352).
Lines that are absent are written as zero. -/
def MemSys.convert (m : MemSys) (o : OwnerTag) (d : Fin 8) (a pa : Nat) : MemSys :=
  let base := 2 ^ 39 + a * 2 ^ 16
  let moved := (m.bytes.filter fun c => base ≤ c.1 && c.1 < base + 2 ^ 16).map fun c => (pa + (c.1 - base), c.2)
  let bad := (m.bad.filter fun u => base / 8 ≤ u && u < (base + 2 ^ 16) / 8).map fun u => u - base / 8 + pa / 8
  let k := (m.owner o).key
  let out (x : Nat) : Bool := !(base ≤ x && x < base + 2 ^ 16) && !(pa ≤ x && x < pa + 2 ^ 16)
  let m := { m with
    bytes := Sparse.puts 0 (m.bytes.filter fun c => out c.1) moved,
    tags := Sparse.puts 0 m.tags (tab 512 fun j => (pa / 128 + j, k)),
    bad := (m.bad.filter fun u => out (8 * u)) ++ bad,
    lines := m.lines.filter fun l => l.line * 128 / 2 ^ 16 != base / 2 ^ 16,
    behind := m.behind.filter fun b => b.1 * 128 / 2 ^ 16 != pa / 2 ^ 16,
    late := m.late ++ [(a, pa)] }
  m.lowerUnit o d

/-- A conversion, with the back-invalidation of lines of the frame that the host may hold (R80, R293). -/
def State.convert (s : State) (o : OwnerTag) (d : Fin 8) (a pa : Nat) : State :=
  let held := s.mem.hostHeld.filter fun l => l * 128 / 2 ^ 16 == pa / 2 ^ 16
  (s.modMemSys fun m =>
    ({ m with hostHeld := m.hostHeld.filter fun l => l * 128 / 2 ^ 16 != pa / 2 ^ 16 } : MemSys).convert o d a pa).emit
      (held.map .backInv)

/-- The owner's late-frame pool: of its oldest paddock that has one, the highest index (R29, R80). Of an owner with several
launches no rule says whose frames go first (log 110). -/
def State.lateFrame? (s : State) (o : OwnerTag) : Option (Nat × State) :=
  (s.pads.find? fun p => p.owner = o && !p.late.isEmpty).bind fun p =>
    p.late.getLast?.map fun pa => (pa, s.modPad p.pid fun k => { k with late := k.late.dropLast })

/-- The indexes of a table page's valid entries. -/
def MemSys.validEntries (m : MemSys) (frame : Nat) : List Nat :=
  (m.bytes.filter fun c => c.1 / 2 ^ 16 == frame && c.1 % 8 == 0 && c.2.getLsbD 0).map fun c => c.1 % 2 ^ 16 / 8

/-- The leaf of an owner's table that maps a frame with a 64 KiB page (R63). -/
def MemSys.leafOf (m : MemSys) (o : OwnerTag) (frame : Nat) : Option Nat :=
  let root := (m.owner o).root.toNat
  (m.validEntries root).findSome? fun i3 =>
    let t2 := leafFrame (m.entry root i3)
    (m.validEntries t2).findSome? fun i2 =>
      (m.validEntries (leafFrame (m.entry t2 i2))).findSome? fun i1 =>
        match m.walk o (i3 * 2 ^ 42 + i2 * 2 ^ 29 + i1 * 2 ^ 16) with
        | .leaf e false _ => if leafFrame e = frame then some e else none
        | _ => none

/-- The domain of an owner's unbacked page: its leaf's home. A frame that no leaf maps has no page: the domain of its
lines stands for it, else the lowest in which the owner holds a reservation (log 62). -/
def MemSys.frameDomain (m : MemSys) (o : OwnerTag) (a : Nat) : Fin 8 :=
  match m.leafOf o (2 ^ 23 + a), m.lines.find? fun l => l.line * 128 / 2 ^ 16 == 2 ^ 23 + a with
  | some e, _ => Fin.ofNat 8 (leafHome e)
  | none, some l => l.dom
  | none, none => ((List.finRange 8).find? fun d => 0 < m.units o d).getD 0

/-- An owner's granted aperture frames not yet converted, from the highest down. -/
def MemSys.unconverted (m : MemSys) (o : OwnerTag) : List Nat :=
  (List.range 1024).reverse.filter fun a => m.grants.contains (a, o) && !m.late.any fun x => x.1 == a

/-- The conversions that were under way are over, and with them the mode change that they belong to (R75, R80). -/
def State.conversionsEnd (s : State) : State :=
  { s with
    mem := { s.mem with converting := none },
    dev := { s.dev with slcDone := s.dev.slcDone || s.dev.slcBusy, slcBusy := false } }

/-- A paddock of an owner still stands on its tiles, running or on its way to a curtain. -/
def State.uncurtained (s : State) (o : OwnerTag) : Bool :=
  s.pads.any fun p => p.owner == o && (p.phase == .running || p.phase == .curtaining)

/-- Pages converted until every slice fits, or no page is left (R80). With the owner's pool empty, its paddocks are curtained
first, and the conversion waits until none of them stands on its tiles and the spill pool has a frame (log 61). -/
def State.convertList : List (OwnerTag × Nat) → State → State
  | [], s => s.conversionsEnd
  | (o, a) :: r, s =>
    if s.mem.fits then s.conversionsEnd
    else
      match s.lateFrame? o with
      | some (pa, s) => State.convertList r (s.convert o (s.mem.frameDomain o a) a pa)
      | none =>
        let s := (s.pads.filter fun p => p.owner = o).foldl (fun s p => s.startCurtain p.pid) s
        match (if s.uncurtained o then none else s.spillFrame o) with
        | some (pa, s) => State.convertList r (s.convert o (s.mem.frameDomain o a) a pa)
        | none => s.modMemSys fun m => { m with converting := some (o, a) }

/-- Pages converted until every slice fits: owners by their most recent RSV, youngest first, frames from the highest down
(R80). -/
def State.convertAll (s : State) : State :=
  State.convertList (s.mem.rsvs.flatMap fun o => (s.mem.unconverted o).map fun a => (o, a)) s

/-- Conversions that wait for a curtain or a frame go on as far as they can (R80). -/
def State.goOnConversions (s : State) : State := if s.mem.converting.isSome then s.convertAll else s

/-! Placement (R50). -/

/-- The paddocks that a waiting launch may curtain, in order: background class first, youngest first (R50). -/
def State.victims (s : State) (w : Waiter) : List Paddock :=
  let may (p : Paddock) : Bool :=
    p.phase == .running && (if w.cls = 0 then p.fn == w.fn else s.deficit p.fn < 0)
  let l := (s.pads.filter may).reverse
  ([3, 2, 1, 0] : List Nat).flatMap fun c => l.filter fun p => p.cls == c

/-- The shortest beginning of the victims without which the shape fits. -/
def victimsFor (free : TileId → Bool) (cols rows : Nat) : List Paddock → List Paddock → Option (List Paddock)
  | taken, rest =>
    let room (t : TileId) : Bool := free t || taken.any fun p => p.tiles.contains t
    if (findOrigin room cols rows).isSome then some taken
    else
      match rest with
      | [] => none
      | p :: r => victimsFor free cols rows (taken ++ [p]) r

/-- A waiter that does not fit: it curtains when it has waited a whole round and its function has a positive
deficit, or its queue is realtime (R50). -/
def State.makeRoom (s : State) (w : Waiter) : State :=
  if w.waited < 2 ∨ (w.cls ≠ 0 ∧ s.deficit w.fn ≤ 0) then s
  else
    let free (t : TileId) : Bool :=
      !s.dev.absent.getLsbD t.val && !s.dev.held.getLsbD t.val &&
      ((s.tile t).pad.isNone || s.pads.any fun p => p.phase == .curtaining && (s.tile t).pad == some p.pid)
    match victimsFor free w.cols w.rows [] (s.victims w) with
    | some l => l.foldl (fun s p => s.startCurtain p.pid) s
    | none => s

/-- One waiter's turn in a placement pass. -/
def State.placeOne (s : State) (w : Waiter) : State :=
  match findOrigin s.tileFree w.cols w.rows with
  | none => s.makeRoom w
  | some o =>
    match w.pad with
    | some pid => s.resumePad pid
    | none =>
      match (s.slot w.slot).taken with
      | some t => s.placeLaunch w t o.1 o.2
      | none => s

/-- PLACEMENT (R50): us µs after the last one, the waiting launches and curtained paddocks are placed in order. -/
def execPlacement (us : Nat) (s : State) : Out :=
  let s := s.countUse us
  .next (s.waiters.foldl State.placeOne s)

/-- ROUND_BOUNDARY (R50): uses return to zero, and what waits for tiles has waited one round more. Of the use counted
next, a part only falls into the new round. -/
def execRoundBoundary (s : State) : Out :=
  let late (n : SlotId) : Bool := s.waitingLaunches.any fun w => w.slot == n
  .next { s with
    fns := s.fns.map fun f => { f with use := Vector.replicate 64 0, left := [] },
    slots := Vector.ofFn fun n =>
      let q := s.slot n
      if late n then { q with taken := q.taken.map fun t => { t with waited := t.waited + 1 } } else q,
    pads := s.pads.map fun p =>
      { p with waited := if p.phase = .curtained then p.waited + 1 else p.waited, part := true } }

/-! The green room (R299, R332, R333). -/

/-- A pass whose page is read and stalls at its next rank (R278). -/
def State.passStalls (s : State) (p : Nat) (x : Pass) : Bool :=
  match x.left with
  | some ((r, st) :: _) => x.len ≤ x.page.length && (s.tile (s.rankTile p r)).landing st x.seq x.len == .stalled
  | _ => false

/-- The head of a copy queue that need not move before the image is saved: stopped, held, fenced, an unfinished link
entry, a stalled pass, a dir-2 copy before its cycle, or one that waits for a scene (R171, R174, R281, R291, R299,
R315). -/
def State.headRests (s : State) (p : Nat) (t : TileId) (q : Fin 4) : Bool :=
  let T := s.tile t
  let n := s.padNet p
  let rank := s.rank t
  match T.queue q with
  | [] => true
  | e :: _ =>
    (T.head? q).isNone ||
    match e.work with
    | .copy r =>
      !e.done &&
      ((r.dir == 2 && !e.begun) || (r.dir == 3 && n.scenes.any fun m => m.rank == rank && m.serial ≤ e.serial) ||
        (r.dir == 4 && !e.begun && s.allArrived p n))
    | .page _ _ _ _ _ _ _ =>
      !e.done && n.passes.any fun x => x.rank == rank && x.q == q && x.serial == e.serial && s.passStalls p x
    | .send port _ _ _ _ _ => e.unfinished (s.port port)
    | .recv port _ _ _ _ _ => e.unfinished (s.port port)
    | .add _ _ => false

/-- Phases 2 and 3 are over at a tile: contexts and the matrix queue stopped, loads, walks and copies drained (R174,
R329), and as many cycles of the scene counted as at rank 0, the count that the image keeps (R334). -/
def State.drained (s : State) (p : Nat) (t : TileId) : Bool :=
  let T := s.tile t
  T.frozen && s.inStep p t && (T.mq.all fun e => e.begun.isNone || e.part.isSome) && T.accs.isEmpty && T.walks.isEmpty && ([0, 1, 2, 3] : List (Fin 4)).all (s.headRests p t)

/-- An arrival at a scene withdrawn: the context performs its SCENE bundle again (R299). -/
def Tile.withdraw (T : Tile) : Tile :=
  let mine := T.e5.filter fun e => e.sent && e.work == .scene
  let T := mine.foldl (fun T e => T.modCtx e.ctx fun c => { c with pc := e.hdr, tail := none, marks := none }) T
  { T with e5 := T.e5.filter fun e => !(e.sent && e.work == .scene) }

/-- Green-room space in 64 KiB units (R74, R332). -/
def greenUnits (mode : BitVec 2) : Nat := if mode = 1 then 1024 else 512
def imageUnits (n : Nat) : Nat := (64 + 1448 * n + 63) / 64

/-- Units that images hold in the green room. -/
def State.greenUsed (s : State) : Nat :=
  (s.pads.map fun p => match p.image with | some i => if i.frames.isEmpty then i.units else 0 | none => 0).sum

/-- The least recently curtained image in the green room. -/
def oldestImage : List Paddock → Option (Paddock × Image)
  | [] => none
  | p :: r =>
    match p.image with
    | some i =>
      if i.frames.isEmpty then
        match oldestImage r with
        | some x => if i.stamp ≤ x.2.stamp then some (p, i) else some x
        | none => some (p, i)
      else oldestImage r
    | none => oldestImage r

/-- An image moved to spill frames (R333); none where the pool does not hold enough. -/
def State.spillImage (s : State) (p : Paddock) (i : Image) : Option State :=
  (State.spillFrames p.owner i.units s).map fun r =>
    r.2.modPad p.pid fun k => { k with image := some { i with frames := r.1 } }

/-- Room made in the green room for an image, oldest images first. The fuel bounds the images. -/
def State.makeGreen (units : Nat) : Nat → State → Option State
  | 0, s => if s.greenUsed + units ≤ greenUnits s.mem.mode then some s else none
  | n + 1, s =>
    if s.greenUsed + units ≤ greenUnits s.mem.mode then some s
    else
      match oldestImage s.pads with
      | some x => (s.spillImage x.1 x.2).bind (State.makeGreen units n)
      | none => none

/-- A paddock's image saved, and its tiles handed back. -/
def State.saveImage (s : State) (p : Paddock) (frames : List Nat) : State :=
  let i : Image := ⟨p.tiles.map s.tile, imageUnits p.tiles.length, frames, s.serial⟩
  let s := { s with serial := s.serial + 1 }
  let s := s.modPad p.pid fun k => { k with image := some i, phase := .curtained, curtains := k.curtains + 1, waited := 0 }
  (s.freeTiles p).noteLeft p

/-- GREEN_ROOM_SAVE (R332, R333): once every tile has stopped and drained, the scene is swapped or its arrivals are
withdrawn (R299), and the image goes to the green room, or to spill frames where it cannot fit. A conversion may have waited
for it (R80). -/
def execGreenRoomSave (p : Nat) (s : State) : Out :=
  .next (
    match s.pad? p with
    | none => s
    | some k =>
      if k.phase ≠ .curtaining ∨ !k.tiles.all (s.drained p) then s
      else
        let ready :=
          if s.mayswap p then s.swapScene p
          else k.tiles.foldl (fun s t => s.modTile t Tile.withdraw) (s.modPadNet p fun n => { n with scenes := [] })
        let k := (ready.pad? p).getD k
        let u := imageUnits k.tiles.length
        let room :=
          if greenUnits s.mem.mode < u then State.spillFrames k.owner u ready
          else (State.makeGreen u s.pads.length ready).map fun x => ([], x)
        match room with
        | some r => (r.2.saveImage k r.1).goOnConversions
        | none => s)

/-! Kill (R338, R339). -/

/-- KILL_SEQUENCE (R338): phases 1 to 3 of a kill that has been decided. -/
def execKillSequence (p : Nat) (s : State) : Out :=
  .next (
    match s.pad? p with
    | some k => if k.phase = .killing then s.killTiles k else s
    | none => s)

/-- An edit of packet k still waits at a node. -/
def Prompter.holds (pr : Prompter) (k j : Nat) : Bool :=
  match pr.nodes[j]? with
  | some n => n.edit.any fun e => e.1 == k
  | none => false

/-- The edits whose nodes have not taken them stay with the queue, packet by packet in the order in which the packets
were taken (R23). -/
def keptEdits (p : Paddock) (tiles : List Tile) : List KeptEdit :=
  p.edits.filterMap fun e =>
    match e.recs.filter fun r => tiles.all fun T => T.pr.holds e.k r.1 with
    | [] => none
    | l => some { e with recs := l }

/-- The attestation record of a launch as far as it has been loaded (R84). -/
def Paddock.record (p : Paddock) : BitVec 256 := match p.loaded with | some l => l.attest | none => p.attest

/-- The end of a launch: its tiles go back, its image's frames return, the record is written and remembered, and
its packet is left to complete (R336, R338). -/
def State.endLaunch (s : State) (p : Paddock) (k : KillInfo) : State :=
  let tiles := match p.image with | some i => i.tiles | none => p.tiles.map s.tile
  let cycles := match tiles with | T :: _ => T.cycle | [] => 0
  let s := match p.image with | some i => i.frames.foldl State.returnFrame s | none => s
  let s := s.unbindPorts p.pid
  let s := if pkRel p.pkt = 2 then s.writeBacks p.owner else s
  let s := s.writeRecord p.slot p.owner (pkCrec p.pkt) (recordBytes k.status k cycles p.curtains p.record)
  let s := s.remember p.slot ⟨pkTag p.pkt, p.owner, k.status, p.record⟩
  (State.dropPad { s with kept := (keptEdits p tiles).foldl (fun l e => insertKept e l) s.kept } p).goOnConversions

/-- KILL_RECORD (R338): phase 4. -/
def execKillRecord (p : Nat) (s : State) : Out :=
  .next (
    match s.pad? p with
    | some k =>
      match k.phase, k.killed with
      | .killed, some i => s.endLaunch k i
      | _, _ => s
    | none => s)

/-- A kill carried through at once (R53, R342). A paddock whose launch has not begun only gives its tiles back. -/
def State.killNow (s : State) (pid : Nat) (i : KillInfo) : State :=
  match s.pad? pid with
  | none => s
  | some k =>
    if k.phase = .loading ∧ !s.begun k then s.dropPad k
    else
      let s := s.modPad pid fun k => k.kill i
      let s := if k.phase = .killed then s else s.killTiles ((s.pad? pid).getD k)
      let k := (s.pad? pid).getD k
      s.endLaunch k (k.killed.getD i)

/-! Completion (R335). -/

/-- Every node of a tile is complete or skipped, no while node's body is still to repeat (R20), and every context is
idle. -/
def Tile.ended (T : Tile) : Bool :=
  (T.pr.nodes.all fun n => (n.st == .complete && !(n.kind == 2 && n.again)) || n.st == .skipped) && T.ctxs.toList.all fun c => c.sel == .idle

/-- A stopped copy, or a record of an idle context (R335). -/
def Tile.unhandled (T : Tile) : Bool :=
  (T.queues.toList.any fun l => l.any fun e => e.stopped.isSome) || T.ctxs.toList.any fun c => !c.records.isEmpty

/-- Queues empty and every access performed (R335). -/
def Tile.quiet (T : Tile) : Bool :=
  T.queues.toList.all (·.isEmpty) && T.mq.isEmpty && T.e5.isEmpty && T.accs.all fun a => a.pieces.all (·.done)

/-- LAUNCH_COMPLETION (R335). -/
def execLaunchCompletion (p : Nat) (s : State) : Out :=
  .next (
    match s.pad? p with
    | none => s
    | some k =>
      if k.phase ≠ .running ∨ !k.tiles.all fun t => (s.tile t).ended then s
      else if k.tiles.any fun t => (s.tile t).unhandled then s.modPad p fun k => k.kill ⟨0x12, 0, 0, 0, 0⟩
      else if k.tiles.all fun t => (s.tile t).quiet then s.endLaunch k ⟨0, 0, 0, 0, 0⟩
      else s)

end Sys2Proof.Machine
end

