-- ==== Sys2Proof/Machine/Calls.lean ====
section
/-!
DEFINITION. Requests that the drover serves (R52, R154): page requests, late frames (R353), aperture grants (R364), forwarded calls and their replies, reservations (R77, R192), migration (R81).
-/
namespace Sys2Proof.Machine

/-- The statuses of R52 to R54 and R154. -/
def stReset : Word := 0xFFFFFFFFFFFFFF01
def stNoService : Word := 0xFFFFFFFFFFFFFF02
def stNoFrame : Word := 0xFFFFFFFFFFFFFF03
def stRefused : Word := 0xFFFFFFFFFFFFFF04

def State.call? (s : State) (id : Nat) : Option Call := s.calls.find? fun c => c.id = id

/-- The number of a system call (R154). -/
def Call.number? (c : Call) : Option Nat :=
  match c.kind with
  | .sysc n => some n.toNat
  | .rsv _ _ => none
  | .unrsv _ _ => none
  | .flkAdd _ _ => none
  | .flkDel _ => none

/-- Argument k of a call: x1 is number 0. -/
def Call.arg (c : Call) (k : Nat) : Nat := (c.args.getD k 0).toNat

/-- A standing system call with a number, served for its paddock; once a reset of the function runs it is answered
with the reset status instead (R53, R154). -/
def State.serve (s : State) (id : Nat) (want : Nat → Bool) (f : Call → Paddock → Nat → State) : State :=
  match s.call? id with
  | none => s
  | some c =>
    match c.number?, s.pad? c.pad with
    | some n, some p =>
      if !want n then s
      else if (s.fn p.fn).resetting then s.reply c (some stReset)
      else f c p n
    | _, _ => s

/-- PAGE_REQUEST (R154): 0 once a valid leaf maps the address; the drover may give up. -/
def execPageRequest (id : Nat) (giveUp : Bool) (s : State) : Out :=
  .next (s.serve id (· == 1) fun c p _ =>
    match s.mem.walk p.owner (c.arg 0) with
    | .leaf _ _ _ => s.reply c (some 0)
    | _ => if giveUp then s.reply c (some stRefused) else s)

/-! Late frames (R353). -/

/-- LATE_FRAME (R353): the page of x1 is converted, as a single page under R80. -/
def execLateFrame (id : Nat) (s : State) : Out :=
  .next (s.serve id (· == 2) fun c p _ =>
    match s.mem.walk p.owner (c.arg 0) with
    | .leaf e false _ =>
      if !leafUnb e then s.reply c (some stRefused)
      else
        let a := apertureFrame (leafFrame e * 2 ^ 16)
        if s.mem.late.any fun x => x.1 == a then s.reply c (some 0)
        else
          match s.lateFrame? p.owner with
          | none => s.reply c (some stNoFrame)
          | some (pa, s) => (s.convert p.owner (Fin.ofNat 8 (leafHome e)) a pa).reply c (some 0)
    | _ => s.reply c (some stRefused))

/-! Aperture grants (R76, R364). -/

/-- The address of the level-1 entry for a page, when levels 3 and 2 lead to a table page (R364). -/
def MemSys.level1 (m : MemSys) (o : OwnerTag) (va : Nat) : Option Nat :=
  let root := (m.owner o).root.toNat
  if !m.tableOk root (fld va 42 13) then none
  else
    let e3 := m.entry root (fld va 42 13)
    if !bit e3 0 || bit e3 1 || !pointerOk e3 || !m.tableOk (leafFrame e3) (fld va 29 13) then none
    else
      let e2 := m.entry (leafFrame e3) (fld va 29 13)
      if !bit e2 0 || bit e2 1 || !pointerOk e2 || !m.tableOk (leafFrame e2) (fld va 16 13) then none
      else some (leafFrame e2 * 2 ^ 16 + 8 * fld va 16 13)

/-- The frames and entries of a grant, or none where R364 refuses it. -/
def MemSys.grantPlan (m : MemSys) (o : OwnerTag) (c va d : Nat) : Option (List (Nat × Nat)) :=
  let free := (List.range 1024).filter fun a => !m.grants.any fun g => g.1 == a
  if c = 0 ∨ va % 2 ^ 16 ≠ 0 ∨ 2 ^ 55 < va + c * 2 ^ 16 ∨ 7 < d ∨ (m.dom (Fin.ofNat 8 d)).unusable ∨ free.length < c then none
  else
    let at_ := (List.range c).map fun k => m.level1 o (va + k * 2 ^ 16)
    if at_.any fun x => match x with | some pa => bit (ofBytes (m.readN pa 8)) 0 | none => true then none
    else some ((free.take c).zip (at_.filterMap id))

/-- The leaf of a granted frame (R364). -/
def grantLeaf (o : OwnerTag) (d a : Nat) : Nat :=
  pack [(o.toNat, 56), (d, 52), (2 ^ 23 + a, 16), (1, 7), (1, 3), (1, 2), (1, 1), (1, 0)]

/-- APERTURE_GRANT (R364). -/
def execApertureGrant (id : Nat) (s : State) : Out :=
  .next (s.serve id (· == 3) fun c p _ =>
    match s.mem.grantPlan p.owner (c.arg 0) (c.arg 1) (c.arg 2) with
    | none => s.reply c (some stRefused)
    | some plan =>
      let s := plan.foldl (fun s x => s.writeMem x.2 (bytesOf 8 (grantLeaf p.owner (c.arg 2) x.1))) s
      (s.modMemSys fun m => { m with grants := m.grants ++ plan.map fun x => (x.1, p.owner) }).reply c (some 0))

/-! The host proxy (R52). -/

/-- The indices of a function's proxy ring are about to be read (R37, R293). -/
def State.proxyHold (s : State) (f : Fin 17) : State :=
  let F := s.fn f
  (s.holdVa F.owner F.cb.toNat 8).holdVa F.owner (F.cb.toNat + 0x80) 8

/-- A record put on a function's proxy ring, when it has room, word 0 last and with release at system scope (R36, R37, R52,
R287). Of a ring or control block that does not
translate no rule says what happens: the indices read as zero there, and what cannot be written is not (log 90). -/
def State.proxyRecord (s : State) (f : Fin 17) (words : List Nat) : Option State :=
  let F := s.fn f
  let s := s.proxyHold f
  let w := s.mem.word F.owner F.cb.toNat
  let r := s.mem.word F.owner (F.cb.toNat + 0x80)
  if F.lsize = 0 ∨ 2 ^ F.lsize.toNat ≤ wrap 64 ((w : Int) - r) then none
  else
    let va := F.base.toNat + w % 2 ^ F.lsize.toNat * 64
    let s := s.writeVa F.owner F.cb.toNat (bytesOf 8 (w + 1))
    let s := (s.writeVa F.owner (va + 8) ((words.drop 1).map (bytesOf 8)).flatten).writeBacks F.owner
    some (s.writeVa F.owner va (bytesOf 8 (words.headD 0)))

/-- FORWARDED_CALL (R52, R154): a call numbered 0x1000 or more goes to the host proxy; one that the drover does not
know, and every one where the ring is disabled, is answered at once. -/
def execForwardedCall (id : Nat) (s : State) : Out :=
  .next (s.serve id (fun n => n == 0 || 4 ≤ n) fun c p n =>
    if c.forwarded.isSome then s
    else if n < 0x1000 ∨ (s.fn p.fn).lsize = 0 then s.reply c (some stNoService)
    else
      let k := (s.fn p.fn).calls % 2 ^ 32
      match s.proxyRecord p.fn ([pack [(k, 32), (p.owner.toNat, 8), (1, 0)], n] ++ tab 6 c.arg) with
      | none => s.proxyHold p.fn
      | some s =>
        let s := s.modFn p.fn fun f => { f with calls := f.calls + 1 }
        { s with calls := s.calls.map fun x => if x.id = c.id then { x with forwarded := some k } else x })

/-- FN_PROXY_REPLY (R52): the result of a call in flight; any other reply is dropped. -/
def execFnProxyReply (fn : Fin 17) (callid : BitVec 32) (result : BitVec 64) (s : State) : Out :=
  .next (
    match s.calls.find? fun c => c.forwarded == some callid.toNat && ((s.pad? c.pad).map (·.fn)) == some fn with
    | some c => s.reply c (some result)
    | none => s)

/-! Reservations (R77, R192). -/

/-- An owner's lines fit a quota at every slice of a domain. -/
def MemSys.withinQuota (m : MemSys) (o : OwnerTag) (d : Fin 8) : Bool :=
  (m.dom d).slices.all fun s => m.inUse o d s ≤ m.quota o d

/-- RSV (R192): its status and the memory system after it. -/
def MemSys.reserve (m : MemSys) (o : OwnerTag) (d : Fin 8) (u : Nat) : Nat × MemSys :=
  if (m.dom d).slices.isEmpty then (2, m)
  else
    let m' := (m.setUnits o d (m.units o d + u)).stamp o
    if m'.fits then (0, m') else (1, m)

/-- UNRSV (R192). -/
def MemSys.unreserve (m : MemSys) (o : OwnerTag) (d : Fin 8) (u : Nat) : Nat × MemSys :=
  if (m.dom d).slices.isEmpty then (2, m)
  else if m.units o d < u then (3, m)
  else
    let m' := m.setUnits o d (m.units o d - u)
    if m.units o d = u then (0, m'.dropDomain o d)
    else if m'.withinQuota o d then (0, m')
    else (1, m)

/-- RESERVATION_DECISION (R192): the drover decides a standing RSV or UNRSV. -/
def execReservationDecision (id : Nat) (s : State) : Out :=
  .next (
    match s.call? id with
    | none => s
    | some c =>
      match s.pad? c.pad with
      | none => s
      | some p =>
        let answer (r : Nat × MemSys) : State := State.reply { s with mem := r.2 } c (some (BitVec.ofNat 64 r.1))
        match c.kind with
        | .rsv u d => answer (s.mem.reserve p.owner d u)
        | .unrsv u d => answer (s.mem.unreserve p.owner d u)
        | _ => s)

/-! Migration (R81). -/

/-- The handles of a page with a new home. -/
def Tile.rehome (T : Tile) (o : OwnerTag) (va : Nat) (home : BitVec 4) : Tile :=
  { T with ctxs := T.ctxs.map fun c =>
      { c with bank := { c.bank with h := c.bank.h.map fun h => if h.named o va false then { h with home := home } else h } } }

/-- MIGRATION (R81): an unbacked page goes to domain e while no paddock of its owner runs, if the owner's reservation
there can take its lines. -/
def execMigration (o : OwnerTag) (va : BitVec 64) (e : Fin 8) (s : State) : Out :=
  .next (
    match s.mem.walk o va.toNat with
    | .leaf l false at_ =>
      let runs := s.pads.any fun p => p.owner == o && p.image.isNone
      if runs ∨ !leafUnb l ∨ (s.mem.dom e).unusable then s
      else
        let m := { s.mem with lines := s.mem.lines.map fun (x : UnbLine) =>
          if x.line * 128 / 2 ^ 16 = leafFrame l ∧ x.owner = o then { x with dom := e } else x }
        if !m.withinQuota o e then s
        else
          let s := State.writeMem { s with mem := m } at_ (bytesOf 8 (setFld l 52 4 e.val))
          { s with pads := s.pads.map fun p =>
              { p with image := p.image.map fun i => i.mapTiles fun T => T.rehome o va.toNat (BitVec.ofNat 4 e.val) } }
    | _ => s)

end Sys2Proof.Machine
end

