-- ==== Sys2Proof/Machine/DeviceRegs.lean ====
section
/-!
DEFINITION. The host's registers (R34, R35, R45): functions and resets (R53), slots and classes (R45 to R48),
partitions and domains (R73, R75), owners (R65 to R67, R342).
-/
namespace Sys2Proof.Machine

/-! Slots (R45 to R48). -/

/-- Slots that a class holds, but for one slot. -/
def State.held (s : State) (c : Nat) (but : SlotId) : Nat :=
  ((List.finRange 64).filter fun n => n != but && (s.slot n).bound && (s.slot n).cls.toNat == c).length

/-- The minimum of a class (R47). -/
def State.clsMinimum (s : State) (c : Nat) : Nat := fld s.dev.clsMin.toNat (8 * c) 8

/-- Whether a slot may belong to a class (R47): enough free slots are left for every other class. -/
def State.classFits (s : State) (n : SlotId) (c : Nat) : Bool :=
  let free := ((List.finRange 64).filter fun k => k != n && !(s.slot k).bound).length
  ((([0, 1, 2, 3] : List Nat).filter fun d => d != c).map fun d => s.clsMinimum d - s.held d n).sum ≤ free

/-- The fields of slot.ctl (R45). -/
def QueueSlot.fields (q : QueueSlot) (w : Nat) : QueueSlot :=
  { q with
    fn := BitVec.ofNat 5 (fld w 58 5), proc := BitVec.ofNat 6 (fld w 52 6), cls := BitVec.ofNat 2 (fld w 50 2),
    prio := BitVec.ofNat 4 (fld w 46 4), lsize := BitVec.ofNat 5 (fld w 41 5), owner := BitVec.ofNat 8 (fld w 33 8) }

/-- SLOT_BIND (R45, R47): a write of slot.ctl with bound set to a slot that is not bound. The queue goes on from the read
index (R48), which reads as zero where the control block does not translate (log 88); a buffer that its indirect packet
had opened is still open (log 53). A halted drover thread starts again from firmware (R327). -/
def execSlotBind (n : SlotId) (w : BitVec 64) (s : State) : Out :=
  s.hostWrite fun s =>
    if (s.slot n).bound then s
    else
      let s := s.modSlot n fun q => q.fields w.toNat
      let q := s.slot n
      if 17 ≤ q.fn.toNat ∨ q.lsize.toNat < 4 ∨ 16 < q.lsize.toNat ∨ !(s.mem.owner q.owner).live ∨ !s.classFits n q.cls.toNat then
        s.modSlot n fun q => { q with err := 7 }
      else
        let s := s.holdVa q.owner (q.cb.toNat + 0x80) 8
        let next := s.mem.word q.owner (q.cb.toNat + 0x80)
        let s := if (s.drover n).halted then s.modDrover n fun d => { d with ctx := Ctx.launch, cycle := 0, halted := false } else s
        (s.modSlot n fun q =>
          { q with bound := true, halted := false, err := 0, wake := true, next := next, taken := none }).modFn q.fnId fun f => { f with masked := false }

/-- Step 1 of R48: a packet partway through its begin finishes it: a launch that is placed, or one refused with its
status written. In a halted queue nothing begins, and a paddock placed for the packet is given up. -/
def State.finishBegin (s : State) (n : SlotId) : State :=
  match (s.slot n).taken with
  | none => s
  | some t =>
    match s.placedFor t with
    | some p => if (s.slot n).halted then s.dropPad p else s.begin_ n t (some p.pid)
    | none =>
      if t.refused.isSome && !(s.slot n).halted && s.barrierMet t && !(s.fn (s.slot n).fnId).resetting then s.begin_ n t none
      else s

/-- Steps 1 to 4 of R48: a begin under way is finished, any other packet taken is given back; the read index is written with
release at system scope (R38, R287); the slot is free. -/
def State.unmap (s : State) (n : SlotId) : State :=
  if !(s.slot n).bound then s
  else
    let s := s.finishBegin n
    let q := s.slot n
    let s := (s.writeBacks q.owner).writeVa q.owner (q.cb.toNat + 0x80) (bytesOf 8 q.next)
    (s.modSlot n fun q => { q with bound := false, unmapped := true, wake := false, taken := none }).msix 0 0

/-- SLOT_UNMAP (R48). -/
def execSlotUnmap (n : SlotId) (s : State) : Out := .next (s.unmap n)

/-- A bound slot takes another class as a new bind would (R45, R47). -/
def State.setClass (s : State) (n : SlotId) (c : Nat) : State :=
  if c = (s.slot n).cls.toNat then s
  else if s.classFits n c then s.modSlot n fun q => { q with cls := BitVec.ofNat 2 c }
  else s.modSlot n fun q => { q with err := 7 }

/-- SLOT_CTL_UPDATE (R45): while bound is 1 a write changes only bound, prio and class; before, it sets the fields. -/
def execSlotCtlUpdate (n : SlotId) (w : BitVec 64) (s : State) : Out :=
  s.hostWrite fun s =>
    if !(s.slot n).bound then s.modSlot n fun q => q.fields w.toNat
    else
      let s := (s.modSlot n fun q => { q with prio := BitVec.ofNat 4 (fld w.toNat 46 4) }).setClass n (fld w.toNat 50 2)
      if w.getLsbD 63 then s else s.unmap n

/-- DEV_CLS_MIN (R47): minima that sum to more than 64 are ignored. -/
def execDevClsMin (w : BitVec 64) (s : State) : Out :=
  s.hostWrite fun s =>
    if 64 < (([0, 8, 16, 24] : List Nat).map fun k => fld w.toNat k 8).sum then s
    else { s with dev := { s.dev with clsMin := w.setWidth 32 } }

/-- Slots that a class has borrowed (R47). -/
def State.borrowed (s : State) (c : Nat) : Nat :=
  ((List.finRange 64).filter fun n => (s.slot n).bound && (s.slot n).cls.toNat == c).length - s.clsMinimum c

/-- The victim of R48: of the class with most borrowed slots, background first on ties, the highest slot. -/
def State.victim (s : State) : Option SlotId :=
  let c := ([3, 2, 1, 0] : List Nat).foldl (fun b k => if s.borrowed b < s.borrowed k then k else b) 3
  if s.borrowed c = 0 then none
  else ((List.finRange 64).reverse).find? fun n => (s.slot n).bound && (s.slot n).cls.toNat == c

/-- DEV_RECLAIM (R48). The class written does not bear on the choice (log 31). -/
def execDevReclaim (_cl : Fin 4) (s : State) : Out :=
  s.hostWrite fun s =>
    match s.victim with
    | none => { s with dev := { s.dev with victim := 0xFF } }
    | some n => State.unmap { s with dev := { s.dev with victim := BitVec.ofNat 8 n.val } } n

/-! Resets (R53). -/

/-- Step 3 of R53: the reset event on the proxy ring, which waits for room (R37); a disabled ring takes none (R35). No rule
gives its callid and owner fields: they are 0 (R52; log 107). -/
def State.resetEvent (s : State) (f : Fin 17) : Option State :=
  if (s.fn f).lsize = 0 then some s else s.proxyRecord f [2, 0, 0, 0, 0, 0, 0, 0]

/-- Steps 4 to 6 of R53. -/
def State.resetRest (s : State) (f : Fin 17) : State :=
  let s := (s.pads.filter fun p => p.fn = f).foldl (fun s p => s.killNow p.pid ⟨0x11, 0, 0, 0, 0⟩) s
  let s := (List.finRange 64).foldl (fun s n => if (s.slot n).bound && (s.slot n).fnId == f then s.unmap n else s) s
  s.modFn f fun x => { x with cb := 0, base := 0, lsize := 0, owner := 0, resetting := false, masked := true }

/-- The reset of one function, in the order of R53. Where the proxy ring is full the reset stands at step 3, and goes on
with a later step. -/
def State.resetFn (s : State) (f : Fin 17) : State :=
  let mine (c : Call) : Bool := c.number?.isSome && ((s.pad? c.pad).map (·.fn)) == some f
  let s := s.modFn f fun x => { x with resetting := true }
  let s := (s.calls.filter mine).foldl (fun s c => s.reply c (some stReset)) s
  match s.resetEvent f with
  | some s => s.resetRest f
  | none => s.proxyHold f

/-- FUNCTION_RESET (R53): bit f of dev.fnreset, or a reset that goes on. -/
def execFunctionReset (fn : Fin 17) (s : State) : Out := .next (s.resetFn fn)

/-- FUNCTION_LEVEL_RESET (R53): that of the physical function resets every function. -/
def execFunctionLevelReset (fn : Fin 17) (s : State) : Out :=
  .next (if fn = 0 then (List.finRange 17).foldl State.resetFn s else s.resetFn fn)

/-- HOT_RESET (R53). -/
def execHotReset (s : State) : Out := .next ((List.finRange 17).foldl State.resetFn s)

/-! Partitions and domains (R73 to R75, R80). -/

/-- Ways leave the cache partition: their lines are written back and invalidated (R75). Which lines lie in them is open
(log 41). -/
def State.shrinkCache (s : State) : State :=
  s.mem.halves.foldl (fun s h =>
    let (w, s) := s.freshWord
    if w.getLsbD 0 then s.withMem (s.mem.evictAll (s.mem.halves.filter fun x => x.half / 2 == h.half / 2)) else s) s

/-- DEV_SLC_MODE (R75): one whose green room is too small is refused; ways that leave the cache partition are written
back and invalidated; a shrink of the unbacked ways converts pages, and done is set with the last of them. A write that names the mode in force asks for no
change, and sets neither done nor refused; a refused one is not kept (log 91). -/
def execDevSlcMode (w : BitVec 64) (s : State) : Out :=
  s.hostWrite fun s =>
    let m := w.setWidth 2
    let s := { s with dev := { s.dev with
      slcDone := s.dev.slcDone && !w.getLsbD 8, slcRefused := s.dev.slcRefused && !w.getLsbD 9 } }
    if m = s.mem.mode then s
    else if greenUnits m < s.greenUsed then { s with dev := { s.dev with slcRefused := true } }
    else
      let s := if cacheWays m < cacheWays s.mem.mode then s.shrinkCache else s
      State.convertAll { s with mem := { s.mem with mode := m }, dev := { s.dev with slcBusy := true } }

/-- Step 3 of R73: the backed lines of a domain are written back and invalidated. A line of a late frame is one of the
domain of its page (R352). -/
def State.flushDomain (s : State) (d : Fin 8) : State :=
  let s := s.withMem (s.mem.evictAll (s.mem.halves.filter fun h => h.dom == d))
  let of (line : Nat) : Bool := s.mem.late.any fun x => x.2 / 2 ^ 16 == line * 128 / 2 ^ 16 &&
    s.mem.grants.any fun g => g.1 == x.1 && s.mem.frameDomain g.2 x.1 == d
  s.modMemSys fun m => { m with behind := m.behind.filter fun b => !of b.1 }

/-- The retired slices of a domain leave it (R343): its backed lines leave the cache, and its registers read the set in force,
unless a change of the driver is still to come (R35). -/
def State.leaveSlices (s : State) (d : Fin 8) : State :=
  ((s.flushDomain d).modMemSys fun m => m.modDom d fun D =>
    let set := D.set &&& ~~~D.leave
    { D with
      set, gen := !D.gen, leave := 0,
      nextSet := if D.busy then D.nextSet &&& ~~~D.leave else set, nextHm := if D.busy then D.nextHm else D.hm }).setHold d
    (s.mem.dom d).busy

/-- Steps 3 to 5 of R73 with the next set and masks, those that stand now (log 114); what no longer fits is converted (R80). A
refused change changes nothing (R35); refused is cleared by the next change that is made, which no rule states (log 109). -/
def State.changeDomain (s : State) (d : Fin 8) : State :=
  let n := (setBits 64 (s.mem.dom d).nextSet.toNat).length
  if n ≠ 0 ∧ !powerOf2 n then
    (s.modMemSys fun m => m.modDom d fun D => { D with refused := true, busy := false }).setHold d false
  else
    State.convertAll (((s.flushDomain d).modMemSys fun m => m.modDom d fun D =>
      { D with set := D.nextSet, hm := D.nextHm, gen := !D.gen, busy := false, refused := false }).setHold d false)

/-- DOMAIN_CHANGE (R73): the domain is held; once no request of it made before is outstanding, retired slices leave it (R343),
or the next set and masks come into force. Unbacked lines are at their homes under them. -/
def execDomainChange (d : Fin 8) (s : State) : Out :=
  let D := s.mem.dom d
  let s := (s.modMemSys fun m => m.modDom d fun D => { D with busy := D.busy || D.leave == 0 }).setHold d true
  .next (
    if s.domainBusy d then s
    else
      let s := if D.leave = 0 then s else State.convertAll (s.leaveSlices d)
      if D.leave ≠ 0 ∧ !D.busy then s else s.changeDomain d)

/-! Owners (R65 to R67, R342), once the device is ready (R361). -/

/-- A command of dev.owncmd has ended. A command that was refused meanwhile is the last one, and leaves its mark; an owner
written meanwhile stays (R342). -/
def State.ownEnd (s : State) (o : OwnerTag) (refused : Bool) : State :=
  { s with dev := { s.dev with
      ownCmd := none, ownRefused := refused || (s.dev.ownCmd.isSome && s.dev.ownRefused),
      ownOwner := if s.dev.ownCmd.isSome then s.dev.ownOwner else o } }

/-- A command refused because another one runs, with the owner that it wrote (R342). -/
def State.ownRefuse (s : State) (o : OwnerTag) : State := { s with dev := { s.dev with ownRefused := true, ownOwner := o } }

/-- Another command of dev.owncmd than this one runs. -/
def State.ownOther (s : State) (op : Nat) (o : OwnerTag) : Bool :=
  match s.dev.ownCmd with
  | some c => c != (op, o)
  | none => false

/-- OWNER_CREATE (R66, R67): a fresh key, unless the owner is live. -/
def execOwnerCreate (o : OwnerTag) (s : State) : Out :=
  .next (
    if !s.dev.ready then s
    else if s.ownOther 1 o then s.ownRefuse o
    else if (s.mem.owner o).live then s.ownEnd o true
    else
      (s.modMemSys fun m => { (m.modOwner o fun x => { x with live := true, key := m.keys }) with keys := m.keys + 1 }).ownEnd o
        false)

/-- Whether a frame of device memory belongs to an owner (R65): every frame whose byte of the table is not set belongs to
owner 0. -/
def MemSys.ownsFrame (m : MemSys) (o : OwnerTag) : Bool :=
  let set := m.bytes.filter fun c => m.fot.toNat ≤ c.1 && c.1 < m.fot.toNat + 2 ^ 23
  if o = 0 then set.length < 2 ^ 23 else set.any fun c => c.2 == o

/-- Whether a frame, slot or paddock belongs to an owner (R67). -/
def State.owns (s : State) (o : OwnerTag) : Bool :=
  s.mem.ownsFrame o || (s.mem.grants.any fun g => g.2 == o) ||
  ((List.finRange 64).any fun n => (s.slot n).bound && (s.slot n).owner == o) || s.pads.any fun p => p.owner == o

/-- OWNER_RETIRE (R67): the key is erased, unless something belongs to the owner. -/
def execOwnerRetire (o : OwnerTag) (s : State) : Out :=
  .next (
    if !s.dev.ready then s
    else if s.ownOther 2 o then s.ownRefuse o
    else if s.owns o then s.ownEnd o true
    else
      (s.modMemSys fun m =>
        { (m.modOwner o fun x => { x with live := false, key := 1 }) with rsvs := m.rsvs.filter fun x => x != o }).ownEnd o false)

/-- Granted aperture frames released: their lines are dropped and their late map entries cleared (R76, R352). -/
def MemSys.releaseGrants (m : MemSys) (f : Nat × OwnerTag → Bool) : MemSys :=
  let gone := (m.grants.filter f).map (·.1)
  let m := (m.lines.filter fun l => gone.contains (l.line * 128 / 2 ^ 16 - 2 ^ 23) && 2 ^ 23 ≤ l.line * 128 / 2 ^ 16).foldl
    (fun m l => m.drop l.line) m
  let frames := (m.late.filter fun x => gone.contains x.1).map fun x => x.2 / 2 ^ 16
  { m with
    grants := m.grants.filter fun g => !f g, late := m.late.filter fun x => !gone.contains x.1,
    behind := m.behind.filter fun b => !frames.contains (b.1 * 128 / 2 ^ 16) }

/-- Steps 1 to 4 of a teardown (R342). The status of its kills is one of the two that R337 gives to kills from outside; the
spec does not say which, so it is a free value (log 32). -/
def State.teardown (s : State) (o : OwnerTag) : State :=
  let (w, s) := s.freshWord
  let status := if w.getLsbD 0 then 0x11 else 0x10
  let s := (s.pads.filter fun p => p.owner = o).foldl (fun s p => s.killNow p.pid ⟨status, 0, 0, 0, 0⟩) s
  let s := (List.finRange 64).foldl (fun s n => if (s.slot n).bound && (s.slot n).owner == o then s.unmap n else s) s
  let s := s.modMemSys fun m => { m with wins := m.wins.filter fun x => x.owner != o }
  let s := s.modMemSys fun m =>
    let m := (m.lines.filter fun l => l.owner = o).foldl (fun m l => m.drop l.line) m
    ({ m with resv := m.resv.filter fun r => r.owner != o } : MemSys).releaseGrants fun g => g.2 == o
  s.withMem (s.mem.evictAll (s.mem.halves.filter fun h => h.owner = o))

/-- TEARDOWN (R342): refused while another command runs. -/
def execTeardown (o : OwnerTag) (s : State) : Out :=
  .next (
    if !s.dev.ready then s
    else if s.ownOther 3 o then s.ownRefuse o
    else (s.teardown o).goOnConversions.ownEnd o false)

/-- FRAME_OWNER_TABLE_WRITE (R65, R71, R76, R339, R343): the driver asks for a frame's owner byte, or for an aperture
frame to be granted; a release clears the region record or the grant. It waits until no paddock of the frame's owner
is left. A retired frame is given to no new owner, and an owner that is not live receives none. Before the device is ready
nothing happens (R361). -/
def execFrameOwnerTableWrite (frame : Nat) (o : OwnerTag) (release : Bool) (s : State) : Out :=
  let pa := frame * 2 ^ 16
  let o := if release then 0 else o
  let usedBy (x : OwnerTag) : Bool := s.pads.any fun p => p.owner == x
  .next (
    if !s.dev.ready then s
    else
    match s.mem.place pa with
    | .device =>
      let old := s.mem.frameOwner frame
      if usedBy old ∨ (o ≠ 0 ∧ !(s.mem.owner o).live) ∨ (o ≠ old ∧ o ≠ 0 ∧ s.mem.retired.contains frame) then s
      else
        let s := s.writeMem (s.mem.fot.toNat + frame) [o]
        if release then s.writeMem (s.mem.rgn.toNat + frame) [0] else s
    | .aperture =>
      let a := apertureFrame pa
      match s.mem.grants.find? fun g => g.1 = a with
      | some g =>
        if release && !usedBy g.2 then s.modMemSys fun m => m.releaseGrants fun x => x == g else s
      | none =>
        if !release && (s.mem.owner o).live then s.modMemSys fun m => { m with grants := m.grants ++ [(a, o)] } else s
    | _ => s)

/-- DEV_LOCK (R35). -/
def execDevLock (w : BitVec 64) (s : State) : Out :=
  s.hostWrite fun s => if w.getLsbD 0 then { s with dev := { s.dev with lock := true } } else s

end Sys2Proof.Machine
end

