-- ==== Sys2Proof/Machine/Retire.lean ====
section
/-!
DEFINITION. Uncorrectable errors, retirement and degradation (R326, R343, R344).
-/
namespace Sys2Proof.Machine

/-- A change after which repl may newly be set: vector 1 of the physical function is sent (R344). -/
def State.alarm (old s : State) : State := if old.why = 0 ∧ s.why ≠ 0 then s.msix 0 1 else s

/-- A unit of a tile has an uncorrectable error (R326, R343): the second unit in one boot withholds the tile. -/
def State.tileError (s : State) (t : TileId) (unit : Nat) : State :=
  let s := s.modMem t fun m => if m.poison.contains unit then m else { m with poison := unit :: m.poison }
  let first := Sparse.get 0 s.dev.tileErrs t.val
  if first = 0 then { s with dev := { s.dev with tileErrs := Sparse.put 0 s.dev.tileErrs t.val (unit + 1) } }
  else if first = unit + 1 then s
  else { s with dev := { s.dev with held := s.dev.held ||| (1 <<< t.val : BitVec 384) } }

/-- The 8-byte units of a line marked (R326). -/
def MemSys.markLine (m : MemSys) (pa : Nat) : MemSys :=
  { m with bad := (tab 16 fun j => pa / 128 * 16 + j) ++ m.bad.filter fun u => u / 16 != pa / 128 }

/-- A slice leaves the domains that contain it, each as R73 says: at once, or once no request of the domain is outstanding.
What no longer fits is converted (R80, R343). -/
def State.removeSlice (s : State) (slice : Nat) : State :=
  State.convertAll ((List.finRange 8).foldl (fun s d =>
    if (s.mem.dom d).set.getLsbD slice then
      let s := (s.modMemSys fun m => m.modDom d fun D => { D with leave := D.leave ||| (1 <<< slice : BitVec 64) }).setHold d true
      if s.domainBusy d then s else s.leaveSlices d
    else s) s)

/-- The way that holds a line of a slice is withdrawn from its set, and what it held of host memory leaves. The room of
unbacked lines stays what the mode gives (R74, R77; log 113). -/
def State.withdrawWay (s : State) (slice pa : Nat) : State :=
  if s.mem.unbacked pa then s
  else
    let s := s.withMem (s.mem.evictAll (s.mem.halves.filter fun h => h.half / 2 == pa / 128))
    s.modMemSys fun m => { m with lost := m.lost ++ [(slice, Config.cacheSet (pa / 128))] }

/-- An uncorrectable error in a line of a slice (R326, R343): the way is withdrawn, and with 64 of them the slice. -/
def State.slcError (s : State) (slice pa : Nat) : State :=
  let lost := Sparse.get 0 s.dev.ways slice + 1
  let s := (s.withdrawWay slice (s.mem.eff pa)).modMemSys fun m => m.markLine (m.eff pa)
  let s := { s with dev := { s.dev with ways := Sparse.put 0 s.dev.ways slice lost } }
  if lost = 64 then State.removeSlice { s with dev := { s.dev with slices := s.dev.slices + 1 } } slice else s

/-- Members added to a list that holds each once. -/
def addNew (l new : List Nat) : List Nat := new.foldl (fun l x => if l.contains x then l else x :: l) l

/-- An uncorrectable error in a row of memory (R326, R343): the row and the frames that it touches are retired, and its
channel fails with the sixteenth. -/
def State.dramError (s : State) (pa : Nat) : State :=
  let ch := (Config.channelOf (pa / 128)).val
  let n := Sparse.get 0 s.dev.chanErrs ch + 1
  let row := Config.rowOf (pa / 128)
  { s with
    dev := { s.dev with rows := addNew s.dev.rows [row], chanErrs := Sparse.put 0 s.dev.chanErrs ch n },
    mem := { s.mem.markLine pa with
      retired := addNew s.mem.retired (pa / 2 ^ 16 :: Config.rowFrames row),
      failing := if n = 16 then ch :: s.mem.failing else s.mem.failing } }

/-- DATA_ERROR (R326): the error is marked where it lies, or, met on the device's behalf, becomes a system fault or a
kill; the stage manager logs it and retires what R343 says. -/
def execDataError (e : ErrSite) (s : State) : Out :=
  .next (
    match e with
    | .scratch t off => State.alarm s ((s.tileError t (off % 2 ^ 20 / 8)).emit [.log 0 t.val])
    | .bank t one off => State.alarm s ((s.tileError t (bankUnit one (off % 2 ^ 17))).emit [.log 1 t.val])
    | .slc slice pa => State.alarm s ((s.slcError (slice % 64) pa).emit [.log 2 pa])
    | .dram pa => State.alarm s ((s.dramError pa).emit [.log 3 pa])
    | .pageTable p =>
      let (i0, s) := s.freshWord
      let (i1, s) := s.freshWord
      State.emit { s with faults := s.faults ++ [⟨0x20, some p, 0, none, 0, i0, i1⟩] } [.log 4 p]
    | .drover p => (s.modPad p fun k => k.kill ⟨0x13, 0, 0, 0, 0⟩).emit [.log 5 p]
    | .greenRoom p => (s.modPad p fun k => k.kill ⟨0x13, 0, 0, 0, 0⟩).emit [.log 6 p])

end Sys2Proof.Machine
end

