-- ==== Sys2Proof/Machine/Box.lean ====
section
/-!
DEFINITION. The device in its box: power modes and the clock (R358 to R360), bring-up (R54, R55, R361, R362), the
attestation quote (R363), and writes of device registers (R5, R34, R35).
-/
namespace Sys2Proof.Machine

/-! Power (R358, R359). -/

/-- DEV_PWR (R358): 3 is ignored; a write during a change is held. -/
def execDevPwr (w : BitVec 64) (s : State) : Out :=
  s.hostWrite fun s =>
    let r : BitVec 2 := w.setWidth 2
    if r = 3 then s
    else if s.dev.pwrBusy then { s with dev := { s.dev with heldReq := some r } }
    else { s with dev := { s.dev with req := r, pwrBusy := r != s.dev.cur } }

/-- MODE_CHANGE_DONE (R358, R359): the requested mode is in force, clk falls to a lower ceiling at once, and a held
request is applied. -/
def execModeChangeDone (s : State) : Out :=
  .next (
    if !s.dev.pwrBusy then s
    else
      let d := { s.dev with cur := s.dev.req, clk := min s.dev.clk (ceiling s.dev.req), pwrBusy := false }
      match d.heldReq with
      | some r => { s with dev := { d with req := r, heldReq := none, pwrBusy := r != d.cur } }
      | none => { s with dev := d })

/-- POWER_SAMPLE (R359, R360): the first row of the table that applies. `low` counts the samples in a row below 0.95 of
the limit; 101 of them span 10 ms. -/
def execPowerSample (tj : Nat) (power : Nat) (s : State) : Out :=
  let d := s.dev
  let plim := powerLimit d.cur
  let low := if 100 * power < 95 * plim then d.low + 1 else 0
  let d' := { d with
    tj := BitVec.ofNat 8 tj, tpeak := BitVec.ofNat 8 (max tj d.tpeak.toNat), power := BitVec.ofNat 16 power, low := low }
  .next { s with dev :=
    if 110 ≤ tj then { d' with off := true }
    else if 100 ≤ tj then { d' with clk := floorClk, hot := true, tthr := true }
    else if d.hot && 95 ≤ tj then { d' with clk := floorClk }
    else if plim < power then
      { d' with hot := false, clk := max floorClk (d.clk - 100), pthr := d.pthr || decide (floorClk < d.clk) }
    else if 101 ≤ low ∧ tj < 95 then { d' with hot := false, clk := min (ceiling d.cur) (d.clk + 100) }
    else { d' with hot := false } }

/-! Bring-up (R54, R55, R343, R361). -/

/-- The physical columns of the working tiles of a row, upward. -/
def workingColumns (failed : List (Nat × Nat)) (row : Nat) : List Nat :=
  (List.range 26).filter fun c => !failed.contains (c, row)

/-- Two rows' tiles of a logical column both exist and lie out of each other's reach (R55). -/
def outOfReach (failed : List (Nat × Nat)) (col row row' : Nat) : Bool :=
  match (workingColumns failed row)[col]?, (workingColumns failed row')[col]? with
  | some a, some b => 2 < a - b || 2 < b - a
  | _, _ => false

/-- A logical position marked absent (R55). -/
def absentAt (failed : List (Nat × Nat)) (col row : Nat) : Bool :=
  (workingColumns failed row)[col]?.isNone || outOfReach failed col row ((row + 1) % 16) ||
    outOfReach failed col row ((row + 15) % 16)

def absentMask (failed : List (Nat × Nat)) : BitVec 384 :=
  BitVec.ofNat 384 ((List.range 384).foldl (fun m k => if absentAt failed (k % 24) (k / 24) then m + 2 ^ k else m) 0)

/-- The physical tile of a logical one under a remapping (R54), which the failed tiles determine. -/
def physical (failed : List (Nat × Nat)) (t : TileId) : Option (Nat × Nat) :=
  ((workingColumns failed (t.val / 24))[t.val % 24]?).map fun c => (c, t.val / 24)

/-- The physical tiles of withheld logical ones, which the next boot replaces (R343). -/
def DevRegs.replaced (d : DevRegs) : List (Nat × Nat) :=
  ((List.finRange 384).filter fun t => d.held.getLsbD t.val).filterMap (physical d.failed)

/-- The version that step 1 checks of an image: of the one written through the mailbox, else the one that power-on
found. -/
def imageVersion (next : Option (BitVec 16 × BitVec 256)) (found : BitVec 16) : BitVec 16 := (next.map (·.1)).getD found

/-- The step of a command of dev.owncmd. -/
def ownStep (c : Nat × OwnerTag) : Instr :=
  if c.1 = 1 then .ownerCreate c.2 else if c.1 = 2 then .ownerRetire c.2 else .teardown c.2

/-- The state in which a boot begins: reset, but for what has left the device, the images in its flash, and the events
still to come, of which an owner command that was under way is none. Host memory lies outside the device and keeps its bytes
(R62). -/
def State.booting (s : State) : State :=
  { State.reset with
    agenda := match s.dev.ownCmd with | some c => s.agenda.erase (ownStep c) | none => s.agenda,
    focus := s.focus, mem := { MemSys.reset with bytes := s.mem.bytes.filter fun c => 2 ^ 47 ≤ c.1 }, out := s.out, serial := s.serial, fresh := s.fresh,
    dev := { DevRegs.reset with nextSm := s.dev.nextSm, nextDrover := s.dev.nextDrover } }

/-- Bring-up stopped in a step with an error (R361). -/
def State.bootErr (s : State) (stage err : Nat) : State :=
  { s with dev := { s.dev with stage := BitVec.ofNat 8 stage, err := BitVec.ofNat 8 err } }

/-- The firmware runs (R361, R362): its version and the digests of its two images (R363). -/
def DevRegs.runImages (d : DevRegs) (ver : BitVec 16) : DevRegs :=
  { d with
    fwver := ver, smDigest := (d.nextSm.map (·.2)).getD Config.smDigest,
    droverDigest := (d.nextDrover.map (·.2)).getD Config.droverDigest }

/-- POWER_ON (R361): steps 1 to 6; links train by their own steps. -/
def execPowerOn (r : BringUp) (s : State) : Out :=
  let ver := imageVersion s.dev.nextSm r.fwver
  let chans := (addNew [] ((r.badChans ++ s.mem.failing).filter (· < 64))).length
  let failed := (r.failed ++ s.dev.replaced).foldl (fun l c => if l.contains c || 26 ≤ c.1 || 16 ≤ c.2 then l else c :: l) []
  let s := s.booting
  .next (
    if !r.fwOk || ver.toNat < Config.fusedMin.toNat ||
        (imageVersion s.dev.nextDrover r.fwver).toNat < Config.fusedMin.toNat then s.bootErr 1 1
    else
      let s := { s with dev := s.dev.runImages ver }
      if !r.idOk then s.bootErr 2 2
      else if 8 < chans then s.bootErr 3 3
      else if (List.range 16).any fun row => (workingColumns failed row).isEmpty then s.bootErr 4 4
      else
        let s' := { s with
          mem := { s.mem with chans := chans },
          dev := { s.dev with failed := failed, absent := absentMask failed, stage := 6, ready := true } }
        State.alarm s s')

/-- FIRMWARE_UPDATE (R361, R362): an image is checked as in step 1, and runs from the next boot. -/
def execFirmwareUpdate (drover : Bool) (ver : BitVec 16) (img : List (BitVec 8)) (sig : BitVec 512) (s : State) : Out :=
  let d := Config.sm3 img
  let ok := Config.sm2Verify Config.fusedKey d sig && Config.fusedMin.toNat ≤ ver.toNat
  let dev := if !ok then s.dev
    else if drover then { s.dev with nextDrover := some (ver, d) } else { s.dev with nextSm := some (ver, d) }
  .next (State.emit { s with dev := dev } [.firmware ok])

/-! Identity (R32, R363). -/

/-- SPDM measurement blocks 1 and 2: the digests of the running stage-manager and drover firmware (R363). -/
def State.measurement (s : State) (block : Nat) : Option (BitVec 256) :=
  if block = 1 then some s.dev.smDigest else if block = 2 then some s.dev.droverDigest else none

/-- SPDM certificate slot 0 certifies the identity key (R363; log 95). -/
def certificateSlot (slot : Nat) : Option (List Byte) := if slot = 0 then some Config.certificate else none

/-- A read of a notify page (R34): zero where a virtual function has no slot behind it; else its value is open (log 96). -/
def State.readNotify (s : State) (f : Fin 17) (page : Nat) : Word :=
  match s.pageSlot f page with
  | some n => Config.notifyRead n.val
  | none => 0

/-! The quote (R363). -/

/-- The bytes that the signature covers. -/
def quoteBytes (drover nonce : BitVec 256) (n : SlotId) (h : History) : List Byte :=
  bytesOf 32 nonce.toNat ++ bytesOf 8 Config.serial.toNat ++ bytesOf 1 n.val ++ bytesOf 1 h.owner.toNat ++ bytesOf 2 0 ++
  bytesOf 4 h.tag.toNat ++ bytesOf 4 h.status ++ bytesOf 32 h.attest.toNat ++ digestBytes drover ++ bytesOf 4 0

/-- The quote of a completed launch. -/
def quote (drover nonce : BitVec 256) (n : SlotId) (h : History) : List Byte :=
  let b := quoteBytes drover nonce n h
  b ++ bytesOf 64 (Config.sm2Sign (Config.sm3 b)).toNat

/-- QUOTE_REQUEST (R363): an error for a launch still running, or not among the 16 kept. -/
def execQuoteRequest (n : SlotId) (tag : BitVec 32) (nonce : BitVec 256) (s : State) : Out :=
  let running := s.pads.any fun p => p.slot = n && pkTag p.pkt == tag
  .next (s.emit [.quote (
    if running then none else ((s.slot n).hist.find? fun h => h.tag = tag).map (quote s.dev.droverDigest nonce n))])

/-! Register writes (R5, R35). -/

/-- The function registers, at the start of every function's BAR 0. fn.proxy.reply takes one 16-byte write, which is
the step FN_PROXY_REPLY. Of an address that is not aligned, or is wider than its register's, no rule says what the register
holds: fn.proxy.cb loses its low bits, and fn.proxy.base is held as written (log 115). -/
def State.writeFn (s : State) (f : Fin 17) (off : Nat) (w : BitVec 64) : State :=
  if off = 0 then s.modFn f fun x => { x with cb := w &&& 0xFFFFFFFFFFFFFF00 }
  else if off = 8 then s.modFn f fun x => { x with base := w }
  else if off = 0x10 then s.modFn f fun x => { x with lsize := w.setWidth 5 }
  else if off = 0x18 then s.modFn f fun x => { x with owner := w.setWidth 8 }
  else s

/-- The steps that a write sets going come next. -/
def State.andThen (s : State) (l : List Instr) : State := { s with agenda := l ++ s.agenda }

/-- dev.owncmd (R66, R342): a command is performed after what stands before it, and one written while another runs is
refused (for a create or a retire no rule says so: log 92). -/
def State.writeOwn (s : State) (w : BitVec 64) : State :=
  let op := w.toNat % 4
  let o : OwnerTag := BitVec.ofNat 8 (fld w.toNat 8 8)
  if op = 0 then { s with dev := { s.dev with ownOwner := o } }
  else if s.dev.ownCmd.isSome then s.ownRefuse o
  else
    { s with
      dev := { s.dev with ownCmd := some (op, o), ownRefused := false, ownOwner := o },
      agenda := s.agenda ++ [ownStep (op, o)] }

/-- dev.fnreset: W1S; the resets come next, in function order (R53). -/
def State.writeReset (s : State) (w : BitVec 64) : State :=
  let fs := (List.finRange 17).filter fun f => w.getLsbD f.val
  State.andThen (fs.foldl (fun s f => s.modFn f fun x => { x with resetting := true }) s) (fs.map .functionReset)

/-- dom[d] (R35, R73): the next set and masks, and apply. -/
def State.writeDom (s : State) (d : Fin 8) (r : Nat) (w : BitVec 64) : State :=
  if r = 0 then s.modMemSys fun m => m.modDom d fun D => { D with nextSet := w }
  else if r = 0x38 then
    (if !w.getLsbD 3 || (s.mem.dom d).busy then s
     else ((s.modMemSys fun m => m.modDom d fun D => { D with busy := true }).setHold d true).andThen [.domainChange d])
  else if h : r % 8 = 0 ∧ 8 ≤ r ∧ r / 8 - 1 < 6 then
    s.modMemSys fun m => m.modDom d fun D => { D with nextHm := D.nextHm.set (r / 8 - 1) (w.setWidth 32) h.2.2 }
  else s

/-- The weights of a function, eight a word; a byte of 0 is ignored (R35, R49). -/
def Fn.setWeights (f : Fn) (k : Nat) (w : BitVec 64) : Fn :=
  { f with wt := Vector.ofFn fun (p : Fin 64) =>
      let v := BitVec.ofNat 8 (fld w.toNat (8 * (p.val % 8)) 8)
      if p.val / 8 = k ∧ v ≠ 0 then v else f.wt[p] }

/-- The slot registers (R45): slot.stat's bits 62 and 61 are W1C. An address that is not aligned is held as written (log 115). -/
def State.writeSlot (s : State) (n : SlotId) (r : Nat) (w : BitVec 64) : State :=
  let q := s.slot n
  if r = 0 then s.andThen [if w.getLsbD 63 && !q.bound then .slotBind n w else .slotCtlUpdate n w]
  else if r = 8 then (if q.bound then s else s.modSlot n fun q => { q with cb := w })
  else if r = 0x10 then (if q.bound then s else s.modSlot n fun q => { q with base := w })
  else if r = 0x18 then
    s.modSlot n fun q => { q with unmapped := q.unmapped && !w.getLsbD 62, warn := q.warn && !w.getLsbD 61 }
  else s

/-- The device registers of the physical function (R35). Of dev.spill.n above 65,536 no rule speaks: it is held as written
(log 26); nor of a dev.spill that is not aligned or exceeds a device address: those bits are dropped (log 115). -/
def State.writeDev (s : State) (off : Nat) (w : BitVec 64) : State :=
  let d := s.dev
  if off = 0x1000 then s.andThen [.devClsMin w]
  else if off = 0x1008 then s.andThen [.devReclaim (Fin.ofNat 4 w.toNat)]
  else if off = 0x1010 then s.writeOwn w
  else if off = 0x1018 then s.writeReset w
  else if off = 0x1020 then
    (let v := w.toNat % 2 ^ 17
     if 1000 ≤ v ∧ v ≤ 100000 then { s with dev := { d with round := w.setWidth 17 } } else s)
  else if off = 0x1028 then s.andThen [.devSlcMode w]
  else if off = 0x1030 then State.goOnConversions { s with dev := { d with spill := w &&& 0xFFFFFFFFFFF8 } }
  else if off = 0x1038 then State.goOnConversions { s with dev := { d with spillN := w.setWidth 17 } }
  else if off = 0x1040 then (if d.lock then s else s.modMemSys fun m => { m with fot := w &&& 0xFFFFFFFF0000 })
  else if off = 0x1048 then (if d.lock then s else s.modMemSys fun m => { m with rgn := w &&& 0xFFFFFFFF0000 })
  else if off = 0x1050 then s.andThen [.devLock w]
  else if off = 0x1300 then s.andThen [.devPwr w]
  else if off = 0x1308 then { s with dev := { d with pthr := d.pthr && !w.getLsbD 1, tthr := d.tthr && !w.getLsbD 0 } }
  else if 0x1500 ≤ off ∧ off < 0x1700 then s.writeDom (Fin.ofNat 8 ((off - 0x1500) / 0x40)) ((off - 0x1500) % 0x40) w
  else if off = 0x2000 ∨ off = 0x2010 then
    (s.modPort (off == 0x2010) fun p => p.fields w).andThen
      [if w.getLsbD 63 then .portBind (off == 0x2010) w else .portUnbind (off == 0x2010)]
  else if 0x3000 ≤ off ∧ off < 0x3000 + 0x200 * 17 then
    (let f := Fin.ofNat 17 ((off - 0x3000) / 0x200)
     let r := (off - 0x3000) % 0x200
     if r = 0 then s.modFn f fun x => { x with share := w.setWidth 8 }
     else if 0x100 ≤ r ∧ r < 0x140 ∧ r % 8 = 0 then s.modFn f fun x => x.setWeights ((r - 0x100) / 8) w
     else s)
  else if 0x20000 ≤ off ∧ off < 0x21000 ∧ off % 0x10 = 0 then
    s.modMemSys fun m => m.modOwner (BitVec.ofNat 8 ((off - 0x20000) / 0x10)) fun x => { x with root := BitVec.ofNat 32 (fld w.toNat 16 32) }
  else if 0x100000 ≤ off ∧ off < 0x104000 then s.writeSlot (Fin.ofNat 64 ((off - 0x100000) / 0x100)) ((off - 0x100000) % 0x100) w
  else if 0x108000 ≤ off ∧ off < 0x118000 ∧ off % 8 = 0 then
    (let port := decide (0x110000 ≤ off)
     if (s.port port).bound then s
     else s.modPort port fun p => { p with table := Sparse.put 0 p.table ((off - 0x108000) % 0x8000 / 8) w })
  else s

/-- REGISTER_WRITE (R5, R34, R35, R361): before the device is ready every register ignores writes; a write that sets a
step going puts it next. -/
def execRegisterWrite (fn : Fin 17) (off : Nat) (w : BitVec 64) (s : State) : Out :=
  .next (
    if !s.dev.ready then s
    else if off < 0x1000 then s.writeFn fn off w
    else if fn = 0 then s.writeDev off w
    else s)

end Sys2Proof.Machine
end

