-- ==== Sys2Proof/Machine/Dispatch.lean ====
section
/-!
DEFINITION. The one match from instructions to meanings, one arm per constructor.
-/
namespace Sys2Proof.Machine

def exec (i : Instr) (s : State) : Host.Outcome State Fault Refusal :=
  match i with
  | .br g off => Sys2Proof.Machine.execBr g off s
  | .brp g off neg p => Sys2Proof.Machine.execBrp g off neg p s
  | .brx g a link => Sys2Proof.Machine.execBrx g a link s
  | .call g off => Sys2Proof.Machine.execCall g off s
  | .callx g d a link => Sys2Proof.Machine.execCallx g d a link s
  | .ret g a => Sys2Proof.Machine.execRet g a s
  | .loop g off stages n => Sys2Proof.Machine.execLoop g off stages n s
  | .loopx g a dist stages => Sys2Proof.Machine.execLoopx g a dist stages s
  | .close g => Sys2Proof.Machine.execClose g s
  | .yield g => Sys2Proof.Machine.execYield g s
  | .endt g => Sys2Proof.Machine.execEndt g s
  | .condw g a word o => Sys2Proof.Machine.execCondw g a word o s
  | .token g a b => Sys2Proof.Machine.execToken g a b s
  | .trap g code => Sys2Proof.Machine.execTrap g code s
  | .sysc g num => Sys2Proof.Machine.execSysc g num s
  | .eret g => Sys2Proof.Machine.execEret g s
  | .csrrd g d csr => Sys2Proof.Machine.execCsrrd g d csr s
  | .csrwr g d a csr => Sys2Proof.Machine.execCsrwr g d a csr s
  | .csrset g d a csr => Sys2Proof.Machine.execCsrset g d a csr s
  | .csrclr g d a csr => Sys2Proof.Machine.execCsrclr g d a csr s
  | .add g t d a b => Sys2Proof.Machine.execAdd g t d a b s
  | .addi g t d a imm => Sys2Proof.Machine.execAddi g t d a imm s
  | .sub g t d a b => Sys2Proof.Machine.execSub g t d a b s
  | .mul g t d a b => Sys2Proof.Machine.execMul g t d a b s
  | .mulh g t d a b => Sys2Proof.Machine.execMulh g t d a b s
  | .mulhu g t d a b => Sys2Proof.Machine.execMulhu g t d a b s
  | .div g t d a b => Sys2Proof.Machine.execDiv g t d a b s
  | .divu g t d a b => Sys2Proof.Machine.execDivu g t d a b s
  | .rem g t d a b => Sys2Proof.Machine.execRem g t d a b s
  | .remu g t d a b => Sys2Proof.Machine.execRemu g t d a b s
  | .and g t d a b => Sys2Proof.Machine.execAnd g t d a b s
  | .andi g t d a imm => Sys2Proof.Machine.execAndi g t d a imm s
  | .or g t d a b => Sys2Proof.Machine.execOr g t d a b s
  | .ori g t d a imm => Sys2Proof.Machine.execOri g t d a imm s
  | .xor g t d a b => Sys2Proof.Machine.execXor g t d a b s
  | .xori g t d a imm => Sys2Proof.Machine.execXori g t d a imm s
  | .shl g t d a b => Sys2Proof.Machine.execShl g t d a b s
  | .shli g t d a imm => Sys2Proof.Machine.execShli g t d a imm s
  | .shr g t d a b => Sys2Proof.Machine.execShr g t d a b s
  | .shri g t d a imm => Sys2Proof.Machine.execShri g t d a imm s
  | .sar g t d a b => Sys2Proof.Machine.execSar g t d a b s
  | .sari g t d a imm => Sys2Proof.Machine.execSari g t d a imm s
  | .clz g t d a => Sys2Proof.Machine.execClz g t d a s
  | .ctz g t d a => Sys2Proof.Machine.execCtz g t d a s
  | .popc g t d a => Sys2Proof.Machine.execPopc g t d a s
  | .min g t d a b => Sys2Proof.Machine.execMin g t d a b s
  | .max g t d a b => Sys2Proof.Machine.execMax g t d a b s
  | .minu g t d a b => Sys2Proof.Machine.execMinu g t d a b s
  | .maxu g t d a b => Sys2Proof.Machine.execMaxu g t d a b s
  | .sel g d a b c => Sys2Proof.Machine.execSel g d a b c s
  | .cmp g t d a b cond => Sys2Proof.Machine.execCmp g t d a b cond s
  | .cmpi g t d a cond imm => Sys2Proof.Machine.execCmpi g t d a cond imm s
  | .movw g d imm => Sys2Proof.Machine.execMovw g d imm s
  | .movhi g d imm => Sys2Proof.Machine.execMovhi g d imm s
  | .extb g d a pos len1 sign => Sys2Proof.Machine.execExtb g d a pos len1 sign s
  | .insb g d a pos len1 => Sys2Proof.Machine.execInsb g d a pos len1 s
  | .fadd g t d a b rm => Sys2Proof.Machine.execFadd g t d a b rm s
  | .fsub g t d a b rm => Sys2Proof.Machine.execFsub g t d a b rm s
  | .fmul g t d a b rm => Sys2Proof.Machine.execFmul g t d a b rm s
  | .ffma g t d a b c rm => Sys2Proof.Machine.execFfma g t d a b c rm s
  | .fdiv g t d a b rm => Sys2Proof.Machine.execFdiv g t d a b rm s
  | .fsqrt g t d a rm => Sys2Proof.Machine.execFsqrt g t d a rm s
  | .fcvt g t d a rm frm u => Sys2Proof.Machine.execFcvt g t d a rm frm u s
  | .fcmp g t d a b cond => Sys2Proof.Machine.execFcmp g t d a b cond s
  | .plog g d a b f => Sys2Proof.Machine.execPlog g d a b f s
  | .pmov g f => Sys2Proof.Machine.execPmov g f s
  | .lds g t d a w u disp => Sys2Proof.Machine.execLds g t d a w u disp s
  | .sts g t d a w disp => Sys2Proof.Machine.execSts g t d a w disp s
  | .ldv g d a w disp => Sys2Proof.Machine.execLdv g d a w disp s
  | .stv g d a w disp => Sys2Proof.Machine.execStv g d a w disp s
  | .ldvs g t d a b w => Sys2Proof.Machine.execLdvs g t d a b w s
  | .gath g d a b w => Sys2Proof.Machine.execGath g d a b w s
  | .scat g d a b w => Sys2Proof.Machine.execScat g d a b w s
  | .winset g d a b => Sys2Proof.Machine.execWinset g d a b s
  | .ringset g d a lsize esz => Sys2Proof.Machine.execRingset g d a lsize esz s
  | .radv g d a n => Sys2Proof.Machine.execRadv g d a n s
  | .rrel g d a n => Sys2Proof.Machine.execRrel g d a n s
  | .xlt g d a => Sys2Proof.Machine.execXlt g d a s
  | .hrel g d => Sys2Proof.Machine.execHrel g d s
  | .hinfo g d a va => Sys2Proof.Machine.execHinfo g d a va s
  | .mld g t d a h u disp => Sys2Proof.Machine.execMld g t d a h u disp s
  | .mldv g d a h disp => Sys2Proof.Machine.execMldv g d a h disp s
  | .mgath g t d a b c => Sys2Proof.Machine.execMgath g t d a b c s
  | .mst g t d a h disp => Sys2Proof.Machine.execMst g t d a h disp s
  | .mstv g d a h disp => Sys2Proof.Machine.execMstv g d a h disp s
  | .amo g t d a b o ord sc h => Sys2Proof.Machine.execAmo g t d a b o ord sc h s
  | .amocas g t d a b c ord sc h => Sys2Proof.Machine.execAmocas g t d a b c ord sc h s
  | .sqld g d a n1 h => Sys2Proof.Machine.execSqld g d a n1 h s
  | .sqpush g d a n1 => Sys2Proof.Machine.execSqpush g d a n1 s
  | .disc g a b h => Sys2Proof.Machine.execDisc g a b h s
  | .vadd g t d a b rm sat u => Sys2Proof.Machine.execVadd g t d a b rm sat u s
  | .vsub g t d a b rm sat u => Sys2Proof.Machine.execVsub g t d a b rm sat u s
  | .vmul g t d a b rm sat u => Sys2Proof.Machine.execVmul g t d a b rm sat u s
  | .vfma g t d a b c rm sat u => Sys2Proof.Machine.execVfma g t d a b c rm sat u s
  | .vfms g t d a b c rm sat u => Sys2Proof.Machine.execVfms g t d a b c rm sat u s
  | .vmin g t d a b u => Sys2Proof.Machine.execVmin g t d a b u s
  | .vmax g t d a b u => Sys2Proof.Machine.execVmax g t d a b u s
  | .vabs g t d a sat => Sys2Proof.Machine.execVabs g t d a sat s
  | .vneg g t d a sat => Sys2Proof.Machine.execVneg g t d a sat s
  | .vand g t d a b => Sys2Proof.Machine.execVand g t d a b s
  | .vor g t d a b => Sys2Proof.Machine.execVor g t d a b s
  | .vxor g t d a b => Sys2Proof.Machine.execVxor g t d a b s
  | .vshl g t d a k => Sys2Proof.Machine.execVshl g t d a k s
  | .vshr g t d a k => Sys2Proof.Machine.execVshr g t d a k s
  | .vsar g t d a k => Sys2Proof.Machine.execVsar g t d a k s
  | .vcmp g t d a b cond => Sys2Proof.Machine.execVcmp g t d a b cond s
  | .vsel g t d a b c => Sys2Proof.Machine.execVsel g t d a b c s
  | .vcvt g t d a rm sat u frm fmt part => Sys2Proof.Machine.execVcvt g t d a rm sat u frm fmt part s
  | .vquant g t d a c rm fmt part => Sys2Proof.Machine.execVquant g t d a c rm fmt part s
  | .vdeq g t d a b rm fmt part => Sys2Proof.Machine.execVdeq g t d a b rm fmt part s
  | .vrcp g t d a rm full => Sys2Proof.Machine.execVrcp g t d a rm full s
  | .vrsq g t d a rm full => Sys2Proof.Machine.execVrsq g t d a rm full s
  | .vexp2 g t d a rm full => Sys2Proof.Machine.execVexp2 g t d a rm full s
  | .vlog2 g t d a rm full => Sys2Proof.Machine.execVlog2 g t d a rm full s
  | .vrsum g t d a rm sat u => Sys2Proof.Machine.execVrsum g t d a rm sat u s
  | .vrmax g t d a u => Sys2Proof.Machine.execVrmax g t d a u s
  | .vrmin g t d a u => Sys2Proof.Machine.execVrmin g t d a u s
  | .vscan g t d a rm sat u o => Sys2Proof.Machine.execVscan g t d a rm sat u o s
  | .vperm g t d a b => Sys2Proof.Machine.execVperm g t d a b s
  | .vsplat g t d a => Sys2Proof.Machine.execVsplat g t d a s
  | .vins g t d a b => Sys2Proof.Machine.execVins g t d a b s
  | .vext g t d a b u => Sys2Proof.Machine.execVext g t d a b u s
  | .viota g t d a b => Sys2Proof.Machine.execViota g t d a b s
  | .vpart g t d a b c arm sl => Sys2Proof.Machine.execVpart g t d a b c arm sl s
  | .vcomp g t d a b c => Sys2Proof.Machine.execVcomp g t d a b c s
  | .vexpd g t d a b => Sys2Proof.Machine.execVexpd g t d a b s
  | .vpcnt g t d a => Sys2Proof.Machine.execVpcnt g t d a s
  | .vmovp g t f => Sys2Proof.Machine.execVmovp g t f s
  | .vmulh g t d a b u => Sys2Proof.Machine.execVmulh g t d a b u s
  | .vclamp g t d a b c u => Sys2Proof.Machine.execVclamp g t d a b c u s
  | .mma g d a b c fa fb kb z => Sys2Proof.Machine.execMma g d a b c fa fb kb z s
  | .mmas g d a b c fa fb kb z n8 => Sys2Proof.Machine.execMmas g d a b c fa fb kb z n8 s
  | .mzero g d => Sys2Proof.Machine.execMzero g d s
  | .mldp g t d a b c u => Sys2Proof.Machine.execMldp g t d a b c u s
  | .mstp g t d a b c rm sat u => Sys2Proof.Machine.execMstp g t d a b c rm sat u s
  | .mrow g d a b => Sys2Proof.Machine.execMrow g d a b s
  | .mrput g d a b => Sys2Proof.Machine.execMrput g d a b s
  | .mtrn g d a => Sys2Proof.Machine.execMtrn g d a s
  | .mops g imm => Sys2Proof.Machine.execMops g imm s
  | .mwin g win => Sys2Proof.Machine.execMwin g win s
  | .mflg g f => Sys2Proof.Machine.execMflg g f s
  | .mfclr g d => Sys2Proof.Machine.execMfclr g d s
  | .mscl g d a b rm => Sys2Proof.Machine.execMscl g d a b rm s
  | .mexp g d a b c => Sys2Proof.Machine.execMexp g d a b c s
  | .mmax g d a b => Sys2Proof.Machine.execMmax g d a b s
  | .seq g d a q => Sys2Proof.Machine.execSeq g d a q s
  | .seqgo g a q => Sys2Proof.Machine.execSeqgo g a q s
  | .cpy g d a q => Sys2Proof.Machine.execCpy g d a q s
  | .cpyr g d a q => Sys2Proof.Machine.execCpyr g d a q s
  | .mcast g d a q => Sys2Proof.Machine.execMcast g d a q s
  | .cntadd g a q k => Sys2Proof.Machine.execCntadd g a q k s
  | .cntwait g a k => Sys2Proof.Machine.execCntwait g a k s
  | .cntrd g d a remote k => Sys2Proof.Machine.execCntrd g d a remote k s
  | .qfence g mask => Sys2Proof.Machine.execQfence g mask s
  | .drain g => Sys2Proof.Machine.execDrain g s
  | .fence g sc => Sys2Proof.Machine.execFence g sc s
  | .bar g id sc smask => Sys2Proof.Machine.execBar g id sc smask s
  | .scene g => Sys2Proof.Machine.execScene g s
  | .netred g t d a b grp o u sat => Sys2Proof.Machine.execNetred g t d a b grp o u sat s
  | .netbc g t d a b c grp => Sys2Proof.Machine.execNetbc g t d a b c grp s
  | .redopen g d a bf bexp len1 => Sys2Proof.Machine.execRedopen g d a bf bexp len1 s
  | .redclose g d a => Sys2Proof.Machine.execRedclose g d a s
  | .flkadd g a flk st => Sys2Proof.Machine.execFlkadd g a flk st s
  | .flkdel g a flk => Sys2Proof.Machine.execFlkdel g a flk s
  | .pgcast g d a q => Sys2Proof.Machine.execPgcast g d a q s
  | .merge g a b c st => Sys2Proof.Machine.execMerge g a b c st s
  | .mrgdrnOpen g a st => Sys2Proof.Machine.execMrgdrnOpen g a st s
  | .mrgdrnDrain g a st => Sys2Proof.Machine.execMrgdrnDrain g a st s
  | .mrgdrnFin g d st => Sys2Proof.Machine.execMrgdrnFin g d st s
  | .rsv g d a dom => Sys2Proof.Machine.execRsv g d a dom s
  | .unrsv g d a dom => Sys2Proof.Machine.execUnrsv g d a dom s
  | .lksendData g d a q port stream nflit cnt cidx => Sys2Proof.Machine.execLksendData g d a q port stream nflit cnt cidx s
  | .lksendRst g a port stream => Sys2Proof.Machine.execLksendRst g a port stream s
  | .lkrecvPost g d a q port stream nflit cnt cidx => Sys2Proof.Machine.execLkrecvPost g d a q port stream nflit cnt cidx s
  | .lkrecvRst g a port stream => Sys2Proof.Machine.execLkrecvRst g a port stream s
  | .lkrecvFrame g d port => Sys2Proof.Machine.execLkrecvFrame g d port s
  | .condv g a n => Sys2Proof.Machine.execCondv g a n s
  | .cpywait g mask => Sys2Proof.Machine.execCpywait g mask s
  | .bundleFetch u => Sys2Proof.Machine.execBundleFetch u s
  | .closingPoint g => Sys2Proof.Machine.execClosingPoint g s
  | .prompterCycle t => Sys2Proof.Machine.execPrompterCycle t s
  | .condwApply p k => Sys2Proof.Machine.execCondwApply p k s
  | .tokenArrival p => Sys2Proof.Machine.execTokenArrival p s
  | .deliver g => Sys2Proof.Machine.execDeliver g s
  | .recordDelivery t c => Sys2Proof.Machine.execRecordDelivery t c s
  | .systemFault p => Sys2Proof.Machine.execSystemFault p s
  | .pointOverrun t => Sys2Proof.Machine.execPointOverrun t s
  | .dataError e => Sys2Proof.Machine.execDataError e s
  | .walkLands t c h => Sys2Proof.Machine.execWalkLands t c h s
  | .loadLands t id => Sys2Proof.Machine.execLoadLands t id s
  | .scaleLoadLands t id => Sys2Proof.Machine.execScaleLoadLands t id s
  | .remoteAccessPerformed t id k => Sys2Proof.Machine.execRemoteAccessPerformed t id k s
  | .allocationDecision t id => Sys2Proof.Machine.execAllocationDecision t id s
  | .sequencerEmit t k => Sys2Proof.Machine.execSequencerEmit t k s
  | .copyPerform t q => Sys2Proof.Machine.execCopyPerform t q s
  | .dir2Inject t q => Sys2Proof.Machine.execDir2Inject t q s
  | .copyCompletion t q => Sys2Proof.Machine.execCopyCompletion t q s
  | .matrixEntryStart t => Sys2Proof.Machine.execMatrixEntryStart t s
  | .matrixEntryWrite t => Sys2Proof.Machine.execMatrixEntryWrite t s
  | .e5EntrySend t => Sys2Proof.Machine.execE5EntrySend t s
  | .barArrival p k => Sys2Proof.Machine.execBarArrival p k s
  | .barCompletion p id => Sys2Proof.Machine.execBarCompletion p id s
  | .netredContribution p k => Sys2Proof.Machine.execNetredContribution p k s
  | .netredResult p grp => Sys2Proof.Machine.execNetredResult p grp s
  | .netbcResult p grp => Sys2Proof.Machine.execNetbcResult p grp s
  | .windowOpen t id => Sys2Proof.Machine.execWindowOpen t id s
  | .windowClose t id => Sys2Proof.Machine.execWindowClose t id s
  | .sceneSwap p => Sys2Proof.Machine.execSceneSwap p s
  | .flockEvent p k => Sys2Proof.Machine.execFlockEvent p k s
  | .passBegin p k => Sys2Proof.Machine.execPassBegin p k s
  | .pageLanding p k => Sys2Proof.Machine.execPageLanding p k s
  | .passCompletion p k => Sys2Proof.Machine.execPassCompletion p k s
  | .counterWait n k => Sys2Proof.Machine.execCounterWait n k s
  | .translationInvalidation o va large => Sys2Proof.Machine.execTranslationInvalidation o va large s
  | .migration o va e => Sys2Proof.Machine.execMigration o va e s
  | .fnProxyReply fn callid result => Sys2Proof.Machine.execFnProxyReply fn callid result s
  | .functionReset fn => Sys2Proof.Machine.execFunctionReset fn s
  | .functionLevelReset fn => Sys2Proof.Machine.execFunctionLevelReset fn s
  | .hotReset => Sys2Proof.Machine.execHotReset s
  | .devReclaim cl => Sys2Proof.Machine.execDevReclaim cl s
  | .slotBind n w => Sys2Proof.Machine.execSlotBind n w s
  | .slotUnmap n => Sys2Proof.Machine.execSlotUnmap n s
  | .slotCtlUpdate n w => Sys2Proof.Machine.execSlotCtlUpdate n w s
  | .devClsMin w => Sys2Proof.Machine.execDevClsMin w s
  | .devSlcMode w => Sys2Proof.Machine.execDevSlcMode w s
  | .domainChange d => Sys2Proof.Machine.execDomainChange d s
  | .devLock w => Sys2Proof.Machine.execDevLock w s
  | .ownerCreate o => Sys2Proof.Machine.execOwnerCreate o s
  | .ownerRetire o => Sys2Proof.Machine.execOwnerRetire o s
  | .teardown o => Sys2Proof.Machine.execTeardown o s
  | .devPwr w => Sys2Proof.Machine.execDevPwr w s
  | .modeChangeDone => Sys2Proof.Machine.execModeChangeDone s
  | .portBind port w => Sys2Proof.Machine.execPortBind port w s
  | .portUnbind port => Sys2Proof.Machine.execPortUnbind port s
  | .registerWrite fn off w => Sys2Proof.Machine.execRegisterWrite fn off w s
  | .snpData hpa => Sys2Proof.Machine.execSnpData hpa s
  | .snpInv hpa => Sys2Proof.Machine.execSnpInv hpa s
  | .snpCur hpa => Sys2Proof.Machine.execSnpCur hpa s
  | .hostResponse hpa own => Sys2Proof.Machine.execHostResponse hpa own s
  | .hostMemoryAccess pa n w => Sys2Proof.Machine.execHostMemoryAccess pa n w s
  | .linkTraining port side frame => Sys2Proof.Machine.execLinkTraining port side frame s
  | .trainingLoss port => Sys2Proof.Machine.execTrainingLoss port s
  | .frameStart port => Sys2Proof.Machine.execFrameStart port s
  | .frameArrival port f => Sys2Proof.Machine.execFrameArrival port f s
  | .powerSample tj power => Sys2Proof.Machine.execPowerSample tj power s
  | .powerOn r => Sys2Proof.Machine.execPowerOn r s
  | .firmwareUpdate drover ver img sig => Sys2Proof.Machine.execFirmwareUpdate drover ver img sig s
  | .quoteRequest n tag nonce => Sys2Proof.Machine.execQuoteRequest n tag nonce s
  | .resultLands g k => Sys2Proof.Machine.execResultLands g k s
  | .panelScoreboardEngineWait t => Sys2Proof.Machine.execPanelScoreboardEngineWait t s
  | .netbcContribution p k => Sys2Proof.Machine.execNetbcContribution p k s
  | .frameOwnerTableWrite frame o release => Sys2Proof.Machine.execFrameOwnerTableWrite frame o release s
  | .notify fn page => Sys2Proof.Machine.execNotify fn page s
  | .packetTake n => Sys2Proof.Machine.execPacketTake n s
  | .packetBegin n => Sys2Proof.Machine.execPacketBegin n s
  | .launch p => Sys2Proof.Machine.execLaunch p s
  | .graphEdit n k => Sys2Proof.Machine.execGraphEdit n k s
  | .indirect n k => Sys2Proof.Machine.execIndirect n k s
  | .counterAdd n k => Sys2Proof.Machine.execCounterAdd n k s
  | .kill n k => Sys2Proof.Machine.execKill n k s
  | .noOp n k => Sys2Proof.Machine.execNoOp n k s
  | .packetCompletion n k => Sys2Proof.Machine.execPacketCompletion n k s
  | .placement us => Sys2Proof.Machine.execPlacement us s
  | .roundBoundary => Sys2Proof.Machine.execRoundBoundary s
  | .curtain p => Sys2Proof.Machine.execCurtain p s
  | .greenRoomSave p => Sys2Proof.Machine.execGreenRoomSave p s
  | .resume p => Sys2Proof.Machine.execResume p s
  | .killSequence p => Sys2Proof.Machine.execKillSequence p s
  | .killRecord p => Sys2Proof.Machine.execKillRecord p s
  | .launchCompletion p => Sys2Proof.Machine.execLaunchCompletion p s
  | .pageRequest id giveUp => Sys2Proof.Machine.execPageRequest id giveUp s
  | .lateFrame id => Sys2Proof.Machine.execLateFrame id s
  | .apertureGrant id => Sys2Proof.Machine.execApertureGrant id s
  | .forwardedCall id => Sys2Proof.Machine.execForwardedCall id s
  | .reservationDecision id => Sys2Proof.Machine.execReservationDecision id s

end Sys2Proof.Machine
end

