-- ==== Sys2Proof/Machine/Step.lean ====
section
/-!
DEFINITION. One step of the device: the next event of the agenda, or a cycle of whoever is in focus; and what stands
around a bundle that issues: its syllables in slot order, then its end (R89, R116, R124, R130).
-/
namespace Sys2Proof.Machine

/-- The syllables of the bundle in issue perform, each against the state before the bundle (R130, R283). -/
def performAll : List (Slot × Instr) → State → Host.Outcome State Fault Refusal
  | [], s => .next s
  | (sl, i) :: r, s =>
    match exec i { s with issue := { s.issue with slot := sl.num } } with
    | .next s' => performAll r s'
    | .fault f => .fault f
    | .refused x => .refused x

/-- A bundle that has issued performs and ends. -/
def finishBundle (s : State) : Host.Outcome State Fault Refusal :=
  match performAll s.issue.todo s with
  | .next s' =>
    match exec (.closingPoint s'.issue.agent) s' with
    | .next t => .next t.noIssue
    | .fault f => .fault f
    | .refused x => .refused x
  | .fault f => .fault f
  | .refused x => .refused x

/-- A cycle of a tile or a drover thread: fetch, and the bundle if it issues (R91, R116). -/
def cycle (u : Issuer) (s : State) : Host.Outcome State Fault Refusal :=
  match exec (.bundleFetch u) s with
  | .next s' => if s'.issue.cleared then finishBundle s' else .next s'
  | .fault f => .fault f
  | .refused x => .refused x

/-- The next event powers the device on (R361). -/
def State.powersOn (s : State) : Bool :=
  match s.agenda with
  | .powerOn _ :: _ => true
  | _ => false

/-- One step: the first event of the agenda; else a cycle of the tile or drover thread in focus (log 2). Once module power
is removed (R359) nothing more until the device is powered on again. -/
def step (s : State) : Host.Outcome State Fault Refusal :=
  if s.dev.off && !s.powersOn then .fault .powerRemoved
  else
    match s.agenda with
    | [] => cycle s.focus s
    | .bundleFetch u :: rest => cycle u { s with agenda := rest }
    | i :: rest => exec i { s with agenda := rest }

/-! Placing an instruction where the next step fetches. -/

/-- The words of a bundle written into an instruction store from an index on. -/
def storeWords (m : Sparse Word) (pc : Nat) : List Nat → Sparse Word
  | [] => m
  | w :: r => storeWords (Sparse.put 0 m (pc % 16384) (BitVec.ofNat 64 w)) (pc + 1) r

/-- A context of a tile made the one that fetches next, with the bundle at its program counter. -/
def Tile.fetchNext (T : Tile) (c : Fin 4) (ws : List Nat) : Tile :=
  let k := T.ctx c
  let T := { T with mem := { T.mem with store := storeWords T.mem.store k.pc ws } }
  let T := T.modCtx c fun k => { k with sel := .ready, tail := none, pending := none, records := [] }
  { T with run := some c, gap := 0, stopReq := false }

/-- The state with a bundle's bits where the next step fetches (log 2): the running context of the tile in focus, else
its context 0; bits above nbits are zero. -/
def State.withFetchWord (s : State) (nbits w : Nat) : State :=
  let t : TileId := match s.focus with | .tile t => t | .drover _ => 0
  let c := (s.tile t).run.getD 0
  let s := s.modTile t fun T => T.fetchNext c (Sys2Proof.wordsOf 9 (w % 2 ^ nbits))
  { s with agenda := [], focus := .tile t, dev := { s.dev with off := false } }

end Sys2Proof.Machine
end

