-- ==== Sys2Proof/Safety.lean ====
section
/-!
DEFINITION. What a safe state and a safe run are. A state is safe when main memory is in canonical form
and no bundle stands half performed; a run is safe when it stops only because power was removed.
-/
namespace Sys2Proof.Machine

/-- No bundle has issued and is still to perform: the syllables of a bundle perform together (R130). -/
def State.betweenBundles (s : State) : Prop := s.issue.cleared = false

/-- What every step keeps: main memory in canonical form, and no bundle half performed. -/
def State.Safe (s : State) : Prop := Memory.wf s.mem = true ∧ s.betweenBundles

/-- What a step may answer in a safe run. -/
def SafeOutcome : Host.Outcome State Fault Refusal → Prop
  | .next s => s.Safe
  | .fault r => r = .powerRemoved
  | .refused _ => False

/-- A run of k steps that stays safe. -/
def SafeRun : Nat → State → Prop
  | 0, s => s.Safe
  | k + 1, s =>
    s.Safe ∧
    match step s with
    | .next t => SafeRun k t
    | .fault r => r = .powerRemoved
    | .refused _ => False

/-- A syllable stands in a bundle whose waits and checks have been passed (R97, R321), and its guard is true (R96):
the conditions under which it performs. -/
def Performs (i : Instr) (s : State) : Prop := s.issue.cleared = true ∧ s.guardTrue i = true

/-- The scratchpad after a context's store of the `n` low bytes of `v` at a window
offset (R160, R161, R326). Byte j goes to `adr j`; where two bytes meet, the later stands. -/
def TileMem.Stored (old new : TileMem) (w : Window) (off : Int) (n v : Nat) : Prop :=
  let adr : Nat → Nat := fun j => (w.base.toNat + ((off + (j : Int)) % (pow2Up w.size.toNat : Nat)).toNat) % 2 ^ 20
  let kept : Nat → Prop := fun A =>
    ¬(0xE0000 ≤ A ∧ A ≤ 0xEFFFF) ∧ (0xFF000 ≤ A → ∀ k < 8, ∃ j < n, adr j = A / 8 * 8 + k)
  (∀ j < n, kept (adr j) → (∀ i < n, j < i → adr i ≠ adr j) →
    Sparse.get 0 new.spad (adr j) = BitVec.ofNat 8 (v / 2 ^ (8 * j))) ∧
  (∀ A, (¬ kept A ∨ ∀ j < n, adr j ≠ A) → Sparse.get 0 new.spad A = Sparse.get 0 old.spad A) ∧
  (∀ k, k ∈ new.poison ↔ k ∈ old.poison ∧ ∀ j < n, kept (adr j) → adr j / 8 ≠ k) ∧
  Sparse.wf 0 new.spad = true ∧ new = { old with spad := new.spad, poison := new.poison }

/-- The scratchpad after an engine's write of bytes at a window offset (R161, R198): neither the constant window nor a
counter changes. -/
def TileMem.EngineWrote (old new : TileMem) (w : Window) (off : Int) (data : List Byte) : Prop :=
  let adr : Nat → Nat := fun j => (w.base.toNat + ((off + (j : Int)) % (pow2Up w.size.toNat : Nat)).toNat) % 2 ^ 20
  let kept : Nat → Prop := fun A => ¬(0xE0000 ≤ A ∧ A ≤ 0xEFFFF) ∧ A < 0xFF000
  (∀ j b, data[j]? = some b → kept (adr j) → (∀ i < data.length, j < i → adr i ≠ adr j) → Sparse.get 0 new.spad (adr j) = b) ∧
  (∀ A, (¬ kept A ∨ ∀ j < data.length, adr j ≠ A) → Sparse.get 0 new.spad A = Sparse.get 0 old.spad A) ∧
  new = { old with spad := new.spad, poison := new.poison }

/-- The wing bank after bytes are written into it from an offset on (R198, R297): the bank that is not the stage bank. -/
def TileMem.WingWrote (old new : TileMem) (off : Nat) (data : List Byte) : Prop :=
  let wing : TileMem → Sparse Byte := fun m => if old.stage1 then m.bank0 else m.bank1
  let adr : Nat → Nat := fun j => (off + j) % 2 ^ 17
  (∀ j b, data[j]? = some b → Sparse.get 0 (wing new) (adr j) = b) ∧
  (∀ A, (∀ j < data.length, adr j ≠ A) → Sparse.get 0 (wing new) A = Sparse.get 0 (wing old) A) ∧
  (if old.stage1 then new.bank1 = old.bank1 else new.bank0 = old.bank0) ∧
  new = { old with bank0 := new.bank0, bank1 := new.bank1, poison := new.poison }

/-- The parts of an access are the `n` bytes at a physical address, in order, none performed, each inside an aligned
8-byte unit (R285). -/
def Piece.Cover (l : List Piece) (pa n : Nat) : Prop :=
  (l.flatMap fun p => (List.range p.n).map fun i => (p.at_ + i, p.pa + i)) = (List.range n).map (fun i => (i, pa + i)) ∧
  ∀ p ∈ l, p.done = false ∧ 1 ≤ p.n ∧ p.pa / 8 = (p.pa + p.n - 1) / 8

/-! ### Rounding as R139 words it, on rationals -/

/-- The value of a finite code or exact result as a rational. -/
def Val.rat : Val → Rat
  | .fin neg m e => (if neg then -1 else 1) * (m : Rat) * (2 : Rat) ^ e
  | .inf _ => 0
  | .nan _ => 0

def Val.isFin : Val → Bool
  | .fin _ _ _ => true | .inf _ => false | .nan _ => false

/-- `k` is the integer that a rounding mode gives for `q` (R139). -/
def RoundsBy (rm : Rm) (q : Rat) (k : Int) : Prop :=
  match rm with
  | .rne => 2 * q ≤ 2 * k + 1 ∧ 2 * (k : Rat) ≤ 2 * q + 1 ∧ (2 * q = 2 * k + 1 ∨ 2 * (k : Rat) = 2 * q + 1 → k % 2 = 0)
  | .rz => if 0 ≤ q then (k : Rat) ≤ q ∧ q < k + 1 else q ≤ k ∧ (k : Rat) < q + 1
  | .ru => q ≤ k ∧ (k : Rat) < q + 1
  | .rd => (k : Rat) ≤ q ∧ q < k + 1

/-- The place of the last bit of a format's numbers of the size of `q`: 2^e, never below that of the smallest number. -/
def FFmt.Quantum (f : FFmt) (q : Rat) (e : Int) : Prop :=
  let n : Rat := q / 2 ^ e
  f.emin - f.m ≤ e ∧ -2 ^ (f.m + 1) < n ∧ n < 2 ^ (f.m + 1) ∧ (e = f.emin - f.m ∨ n ≤ -2 ^ f.m ∨ 2 ^ f.m ≤ n)

/-- The code of infinity with a sign. -/
def FFmt.infCode (f : FFmt) (neg : Bool) : Nat := f.signed neg ((2 ^ f.e - 1) * 2 ^ f.m)

/-- `v` is the code of a format that a nonzero exact result `q` rounds to, once, a result beyond the largest finite
number going where R141 and R213 send it: to the largest where the target saturates or has no infinity. -/
def FFmt.RoundedTo (f : FFmt) (rm : Rm) (sat : Bool) (q : Rat) (v : Nat) : Prop :=
  let neg : Bool := decide (q < 0)
  let big : Rat := (f.decode f.maxCode).rat
  ∃ (e k : Int), f.Quantum q e ∧ RoundsBy rm (q / 2 ^ e) k ∧
    if -big ≤ k * 2 ^ e ∧ k * (2 : Rat) ^ e ≤ big then
      (f.decode v).isFin = true ∧ (f.decode v).rat = k * 2 ^ e ∧ (f.decode v).sign = neg
    else v = if sat = true ∨ f.kind ≠ .ieee then f.signed neg f.maxCode else (match rm with
      | .rne => f.infCode neg
      | .rz => f.signed neg f.maxCode
      | .ru => if neg then f.signed true f.maxCode else f.infCode false
      | .rd => if neg then f.infCode true else f.signed false f.maxCode)

/-- The rounding of an arithmetic result to an IEEE format (R139, R141). -/
def FFmt.Rounded (f : FFmt) (rm : Rm) (q : Rat) (v : Nat) : Prop := f.RoundedTo rm false q v

/-- An element of a reduction window with base exponent `b` after the value `x` has been reduce-added (R221), and whether
that sets the overflow flag. -/
def RedElem.Added (b : Int) (x : Val) (old new : RedElem) (flag : Bool) : Prop :=
  if old.count = 65536 then new = { old with poison := true } ∧ flag = true
  else if x.isFin = false then new = { old with count := old.count + 1, poison := true } ∧ flag = true
  else ∃ k : Int, RoundsBy .rne (x.rat / 2 ^ (b - 64)) k ∧ (flag = true ↔ 2 ^ 79 ≤ k.natAbs) ∧
    new = { old with count := old.count + 1, acc := old.acc + if 2 ^ 79 ≤ k then 2 ^ 79 - 1 else if k ≤ -2 ^ 79 then 1 - 2 ^ 79 else k }

/-- `v` is the code that a value of a kind with NaN and infinity becomes in a floating-point format (R213). -/
def FFmt.Converted (f : FFmt) (rm : Rm) (sat : Bool) (x : Val) (v : Nat) : Prop :=
  (x.isNan = true → f.kind ≠ .finite → v = f.qnan) ∧
  (x.isInf = true → v = if f.kind ≠ .ieee ∨ sat = true ∧ f = fpE5m2 then f.signed x.sign f.maxCode else f.infCode x.sign) ∧
  (x.isFin = true → x.rat = 0 → v = f.signed x.sign 0) ∧
  (x.isFin = true → x.rat ≠ 0 → f.RoundedTo rm sat x.rat v)

/-- A result before its rounding: not a number, an infinity, or a real number with the sign it has as a zero. -/
inductive Exact where
  | nan
  | inf (neg : Bool)
  | num (q : Rat) (zero : Bool)

/-- The value of a decoded code. -/
def Val.exact : Val → Exact
  | .nan _ => .nan
  | .inf n => .inf n
  | .fin n m e => .num (Val.fin n m e).rat n

def Exact.sign : Exact → Bool
  | .nan => false
  | .inf n => n
  | .num q z => if q = 0 then z else decide (q < 0)

def Exact.neg : Exact → Exact
  | .nan => .nan
  | .inf n => .inf (!n)
  | .num q z => .num (-q) (!z)

def Exact.abs (x : Exact) : Exact := if x.sign then x.neg else x

/-- The exact sum (R139): opposite infinities give no number, and a zero sum is -0 where both are, or in the mode that
rounds down where they are not both zeros of one sign. -/
def Exact.add (rm : Rm) : Exact → Exact → Exact
  | .nan, _ => .nan
  | _, .nan => .nan
  | .inf a, .inf b => if a = b then .inf a else .nan
  | .inf a, .num _ _ => .inf a
  | .num _ _, .inf b => .inf b
  | .num q y, .num r z => .num (q + r) (if q = 0 ∧ r = 0 ∧ y = z then y else decide (rm = .rd))

/-- The exact product (R139): zero times an infinity gives no number. -/
def Exact.mul (x y : Exact) : Exact :=
  match x, y with
  | .nan, _ => .nan
  | _, .nan => .nan
  | .num q _, .inf b => if q = 0 then .nan else .inf (x.sign != b)
  | .inf a, .num q _ => if q = 0 then .nan else .inf (a != y.sign)
  | .inf a, .inf b => .inf (a != b)
  | .num q _, .num r _ => .num (q * r) (x.sign != y.sign)

/-- The exact quotient (R139, R140). -/
def Exact.div (x y : Exact) : Exact :=
  match x, y with
  | .nan, _ => .nan
  | _, .nan => .nan
  | .inf _, .inf _ => .nan
  | .inf a, .num _ _ => .inf (a != y.sign)
  | .num _ _, .inf b => .num 0 (x.sign != b)
  | .num q _, .num r _ => if r = 0 then (if q = 0 then .nan else .inf (x.sign != y.sign)) else .num (q / r) (x.sign != y.sign)

/-- The exact value times 2^k. -/
def Exact.scale (k : Int) : Exact → Exact
  | .nan => .nan
  | .inf n => .inf n
  | .num q z => .num (q * 2 ^ k) z

/-- The order of numbers and infinities, +0 and -0 being equal; false where there is no number. -/
def Exact.lt : Exact → Exact → Bool
  | .nan, _ => false
  | _, .nan => false
  | .inf a, .inf b => a && !b
  | .inf a, .num _ _ => a
  | .num _ _, .inf b => !b
  | .num q _, .num r _ => decide (q < r)

/-- `v` is the code of an IEEE format that a result becomes, rounded once (R139, R141). -/
def FFmt.Takes (f : FFmt) (rm : Rm) (x : Exact) (v : Nat) : Prop :=
  match x with
  | .nan => v = f.qnan
  | .inf n => v = f.infCode n
  | .num q z => (q = 0 → v = f.signed z 0) ∧ (q ≠ 0 → f.Rounded rm q v)

/-- The value of an FP32 code. -/
def real32 (x : BitVec 32) : Exact := (fp32.decode x.toNat).exact

/-- The code in a sum a × b + c × d of FP32 codes, exact and rounded once. -/
def Dot2 (a b c d r : BitVec 32) : Prop :=
  fp32.Takes .rne (((real32 a).mul (real32 b)).add .rne ((real32 c).mul (real32 d))) r.toNat

/-- The higher of two FP32 codes (R233): -0 below +0, the number where one is no number, and the canonical NaN where
neither is. -/
def higher32 (x y : BitVec 32) : BitVec 32 :=
  let nan : BitVec 32 → Bool := fun v => decide (0x7F800000 < (v &&& 0x7FFFFFFF).toNat)
  let key : BitVec 32 → Int := fun v => if v.msb then -((v.toNat : Int) - 2 ^ 31) - 1 else v.toNat
  if nan x then (if nan y then 0x7FC00000 else y) else if nan y then x else if key x < key y then y else x

/-- MergeIn (R280): the running maximum, sum and lanes after a partial; `a` and `b` are the two weights. -/
def MergedIn (M L : BitVec 32) (O : List (BitVec 32)) (p : BitVec 32 × BitVec 32 × List (BitVec 32))
    (M' L' : BitVec 32) (O' : List (BitVec 32)) : Prop :=
  let weight : BitVec 32 → BitVec 32 → Prop := fun x w => ∃ v : Nat,
    fp32.Takes .rne ((real32 x).add .rne (real32 M').neg) v ∧ w = BitVec.ofNat 32 (fp32.afun .exp2 false .rne (fp32.decode v)).1
  M' = higher32 M p.1 ∧ ∃ a b : BitVec 32,
    (if M' = 0xFF800000 then a = 0x3F800000 ∧ b = 0x3F800000 else weight M a ∧ weight p.1 b) ∧
    Dot2 L a p.2.1 b L' ∧ O'.length = min O.length p.2.2.length ∧
    ∀ (j : Nat) (x y r : BitVec 32), O[j]? = some x → p.2.2[j]? = some y → O'[j]? = some r → Dot2 x a y b r

/-- A drain of filled entries in ascending sequence order (R280): the running values before and after. -/
def Drained (l : List MergeEntry) (old new : MergeStream) : Prop :=
  ∃ s : List MergeEntry, List.Perm s l ∧ s.Pairwise (fun a b => a.seq ≤ b.seq) ∧
  ∃ M L : Nat → BitVec 32, ∃ O : Nat → List (BitVec 32),
    M 0 = old.m ∧ L 0 = old.l ∧ O 0 = old.o ∧ M s.length = new.m ∧ L s.length = new.l ∧ O s.length = new.o ∧
    ∀ i e p, s[i]? = some e → e.part = some p → MergedIn (M i) (L i) (O i) p (M (i + 1)) (L (i + 1)) (O (i + 1))

/-- GroupAdd from the exact products of a group on (R217): `k` is sa + sb, `w` the window, `bad` that a scale or an
operand is no number. A group that answers QNaN or an infinity leaves the lost-significance bit (R218; log 106). -/
def GroupAdded (bad : Bool) (acc : Nat) (ps : List Exact) (k : Int) (w : Option Nat) (lost : Bool) (acc' : Nat) (lost' : Bool) : Prop :=
  let none_ : Prop := bad = true ∨ .nan ∈ ps ∨ .inf false ∈ ps ∧ .inf true ∈ ps
  (none_ → acc' = 0x7FC00000 ∧ lost' = lost) ∧
  (¬ none_ → ∀ n, .inf n ∈ ps → lost' = lost ∧ fp32.Takes .rne ((fp32.decode acc).exact.add .rne (.inf n)) acc') ∧
  (¬ none_ → (∀ n, .inf n ∉ ps) → ∃ (p q : List Rat), p.length = ps.length ∧ q.length = ps.length ∧
    (∀ i : Nat, ∀ x ∈ p[i]?, ∃ z, ps[i]? = some (.num x z)) ∧
    (w = none ∨ (∀ x ∈ p, x = 0) → q = p) ∧
    (∀ n, w = some n → (∃ x ∈ p, x ≠ 0) → ∃ e : Int,
      (∃ x ∈ p, (2 : Rat) ^ e ≤ x ∨ x ≤ -2 ^ e) ∧ (∀ x ∈ p, -2 ^ (e + 1) < x ∧ x < 2 ^ (e + 1)) ∧
      ∀ i : Nat, ∀ x ∈ p[i]?, ∃ j : Int, RoundsBy .rz (x / 2 ^ (e + 1 - (n : Int))) j ∧ q[i]? = some ((j : Rat) * 2 ^ (e + 1 - (n : Int)))) ∧
    lost' = (lost || decide (q ≠ p) && decide (acc' ≠ 0x7FC00000 ∧ (fp32.decode acc').isInf = false)) ∧
    (q.sum = 0 → acc' = acc) ∧
    (q.sum ≠ 0 → fp32.Takes .rne ((fp32.decode acc).exact.add .rne (.num (q.sum * 2 ^ k) false)) acc'))

/-- CompareSelect on the scaled products of a group (R263): the maximum is a real number, so that a zero has no sign
(log 24). -/
def CompareSelected (bad : Bool) (acc idx : Nat) (ps : List Exact) (k0 acc' idx' : Nat) : Prop :=
  (bad = true ∨ .nan ∈ ps → acc' = 0x7FC00000 ∧ idx' = k0 % 2 ^ 32) ∧
  (bad = false → .nan ∉ ps → ∃ (m : Nat) (x : Exact) (v : Nat), ps[m]? = some x ∧
    (∀ y ∈ ps, x.lt y = false) ∧ (∀ i < m, ∀ y ∈ ps[i]?, y.lt x = true) ∧
    fp32.Takes .rne (match x with | .num q _ => .num q false | y => y) v ∧
    if (fp32.decode acc).exact.lt (fp32.decode v).exact = true then acc' = v ∧ idx' = (k0 + m) % 2 ^ 32 else acc' = acc ∧ idx' = idx)

/-- The code of a taper value with a sign (R212). -/
def taperSigned (n : Nat) (neg : Bool) (c : Nat) : Nat := if neg then 2 ^ n - c else c

/-- `v` is the n-bit taper code that a value becomes (R213): decided on the value itself, never zero for a nonzero one. -/
def TaperConverted (n : Nat) (rm : Rm) (x : Val) (v : Nat) : Prop :=
  let tap : Nat → Rat := fun c => (taperDecode n c).rat
  let a : Rat := if x.sign then -x.rat else x.rat
  let top : Nat := 2 ^ (n - 1) - 1
  (x.isFin = false → v = 2 ^ (n - 1)) ∧
  (x.isFin = true → x.rat = 0 → v = 0) ∧
  (x.isFin = true → tap top < a → v = taperSigned n x.sign top) ∧
  (x.isFin = true → 0 < a → a < tap 1 → v = taperSigned n x.sign 1) ∧
  (∀ c, 1 ≤ c → c ≤ top → x.isFin = true → a = tap c → v = taperSigned n x.sign c) ∧
  (∀ c, 1 ≤ c → c < top → x.isFin = true → tap c < a → a < tap (c + 1) →
    v = taperSigned n x.sign (match rm with
      | .rne => if 2 * a < tap c + tap (c + 1) then c else if tap c + tap (c + 1) < 2 * a then c + 1
        else if c % 2 = 0 then c else c + 1
      | .rz => c
      | .ru => if x.sign then c else c + 1
      | .rd => if x.sign then c + 1 else c))

/-- `v` is the w-bit code that a value becomes in an integer range (R142). -/
def IntConverted (w : Nat) (u : Bool) (rm : Rm) (x : Val) (v : Nat) : Prop :=
  let n : Int := if u then (v : Int) else (BitVec.ofNat w v).toInt
  let lo : Int := if u then 0 else -(2 ^ (w - 1) : Nat)
  let hi : Int := if u then (2 ^ w : Nat) - 1 else (2 ^ (w - 1) : Nat) - 1
  v < 2 ^ w ∧ (x.isNan = true → n = 0) ∧ (x.isInf = true → n = if x.sign then lo else hi) ∧
  (x.isFin = true → ∃ k : Int, RoundsBy rm x.rat k ∧ n = if k < lo then lo else if hi < k then hi else k)

/-- `v` is the code that a value becomes in an element format (R210, R213); MXINT8 counts in steps of 2^-6. -/
def ElemConverted (f : MFmt) (rm : Rm) (sat : Bool) (x : Val) (v : Nat) : Prop :=
  match f with
  | .bf16 => fpBf16.Converted rm sat x v
  | .f16 => fp16.Converted rm sat x v
  | .e4m3 => fpE4m3.Converted rm sat x v
  | .e5m2 => fpE5m2.Converted rm sat x v
  | .mx8e4 => fpE4m3.Converted rm sat x v
  | .mx8e5 => fpE5m2.Converted rm sat x v
  | .f6 => fpE3m2.Converted rm sat x v
  | .f6m3 => fpE2m3.Converted rm sat x v
  | .f4 => fpE2m1.Converted rm sat x v
  | .mxi8 => IntConverted 8 false rm (x.scale 6) v
  | .i8 => IntConverted 8 false rm x v
  | .u8 => IntConverted 8 true rm x v
  | .i4 => IntConverted 4 false rm x v
  | .u4 => IntConverted 4 true rm x v
  | .tap8 => TaperConverted 8 rm x v
  | .tap6 => TaperConverted 6 rm x v
  | .mxtap8 => TaperConverted 8 rm x v
  | .mxtap6 => TaperConverted 6 rm x v
  | .f32 => fp32.Converted rm sat x v
  | .i16 => IntConverted 16 false rm x v

/-- `v` is the code that a value becomes in a type: a float, or an integer read signed or (`u`) unsigned (R142, R213). -/
def TyConverted (t : Ty) (u : Bool) (rm : Rm) (x : Val) (v : Nat) : Prop :=
  match t with
  | .i64 => IntConverted 64 u rm x v
  | .i32 => IntConverted 32 u rm x v
  | .i16 => IntConverted 16 u rm x v
  | .i8 => IntConverted 8 u rm x v
  | .f32 => fp32.Converted rm false x v
  | .bf16 => fpBf16.Converted rm false x v
  | .f16 => fp16.Converted rm false x v

/-- `v` is the code of a positive number to which the square root of a positive `y` rounds, its last place being that of
the root, and no root being beyond the format's numbers. -/
def FFmt.RoundedRoot (f : FFmt) (rm : Rm) (y : Rat) (v : Nat) : Prop :=
  (f.decode v).isFin = true ∧ ∃ (e k : Int), f.emin - f.m ≤ e ∧ y < 2 ^ (2 * (e + f.m + 1)) ∧
    (e = f.emin - f.m ∨ 2 ^ (2 * (e + f.m)) ≤ y) ∧ 0 < k ∧ (f.decode v).rat = k * 2 ^ e ∧
    let x : Rat := y / 2 ^ (2 * e)
    match rm with
    | .rne => (2 * k - 1 : Rat) * (2 * k - 1) ≤ 4 * x ∧ 4 * x ≤ (2 * k + 1) * (2 * k + 1) ∧
      (4 * x = (2 * k - 1) * (2 * k - 1) ∨ 4 * x = (2 * k + 1) * (2 * k + 1) → k % 2 = 0)
    | .ru => (k - 1 : Rat) * (k - 1) < x ∧ x ≤ k * k
    | .rz => (k : Rat) * k ≤ x ∧ x < (k + 1) * (k + 1)
    | .rd => (k : Rat) * k ≤ x ∧ x < (k + 1) * (k + 1)

/-- The flags that one rounding of a nonzero number raises in an IEEE format (R139, R141): overflow and inexact beyond the
largest number, inexact where the number changes, and then underflow where it is tiny after rounding without a bound on
the exponent. -/
def FFmt.RoundFlags (f : FFmt) (rm : Rm) (q : Rat) (fl : Flags) : Prop :=
  let size : Rat → Rat := fun x => if x < 0 then -x else x
  let big : Rat := (f.decode f.maxCode).rat
  ∃ (e k : Int) (tiny : Bool), f.Quantum q e ∧ RoundsBy rm (q / 2 ^ e) k ∧
    (tiny = true ↔ ∃ d j : Int, (2 : Rat) ^ d ≤ size q ∧ size q < 2 ^ (d + 1) ∧ RoundsBy rm (q / 2 ^ (d - f.m)) j ∧
      size (j * 2 ^ (d - f.m)) < 2 ^ f.emin) ∧
    fl = if big < size (k * 2 ^ e) then Flags.ovf ||| Flags.nx
      else if (k : Rat) * 2 ^ e = q then 0 else if tiny then Flags.uf ||| Flags.nx else Flags.nx

/-- An arithmetic operation on these operands, whose exact result is `x`, answers the code `v` and raises the flags `fl`
(R139 to R141); `dz` is that an infinity comes from a division by zero. -/
def FFmt.Answers (f : FFmt) (rm : Rm) (l : List Val) (x : Exact) (dz : Bool) (v : Nat) (fl : Flags) : Prop :=
  f.Takes rm x v ∧ ((∃ y ∈ l, y.isSig = true) → fl = Flags.nv) ∧
  ((∀ y ∈ l, y.isNan = false) →
    match x with
    | .nan => fl = Flags.nv
    | .inf _ => fl = if dz then Flags.dz else 0
    | .num q _ => (q = 0 → fl = 0) ∧ (q ≠ 0 → f.RoundFlags rm q fl))

/-- The end of the bundle in issue as its issue leaves it: no transfer, trap, yield, task end, return or wait yet. -/
def State.openTail (s : State) : Tail :=
  ⟨s.issue.hdr, s.issue.hdr + 1 + s.issue.n, none, none, none, false, false, .none, []⟩

end Sys2Proof.Machine
end

