-- ==== Sys2Proof/Certificates/Slice0/Obligations.lean ====
section
/-!
DEFINITION. The statements for the provers. Each names in its docstring what it says and the rules it comes from.
-/
open Sys2Proof Sys2Proof.Machine


/-- When its bundle has issued and its guard is true, each of ADD, ADDI, SUB, MUL, MULH, MULHU answers a next state in
which the w-bit sum, difference, product or high product of the operands, extended as R131's table marks it, is in
flight to xd with no flags, to land after 1 cycle (ADD, ADDI, SUB) or 3 cycles (MUL, MULH, MULHU), and nothing else is
changed. (06_scalar_and_control.md, R131, R133, R128) -/
def Obligations.IntegerSumsAndProducts : Prop :=
  ∀ (s : State) (g : Guard) (t : Ty) (d : Fin 32) (a b : Src) (imm : BitVec 36),
  let A : BitVec t.bits := (s.X 1 a).setWidth t.bits
  let B : BitVec t.bits := (s.X 2 b).setWidth t.bits
  let I : BitVec t.bits := (imm.signExtend 64).setWidth t.bits
  t.isInt = true →
  (Performs (.add g t d a b) s →
    exec (.add g t d a b) s = .next (s.result (.x d ((A + B).signExtend 64)) 0 .scalar 1)) ∧
  (Performs (.addi g t d a imm) s →
    exec (.addi g t d a imm) s = .next (s.result (.x d ((A + I).signExtend 64)) 0 .scalar 1)) ∧
  (Performs (.sub g t d a b) s →
    exec (.sub g t d a b) s = .next (s.result (.x d ((A - B).signExtend 64)) 0 .scalar 1)) ∧
  (Performs (.mul g t d a b) s →
    exec (.mul g t d a b) s = .next (s.result (.x d ((A * B).signExtend 64)) 0 .scalar 3)) ∧
  (Performs (.mulh g t d a b) s →
    exec (.mulh g t d a b) s =
      .next (s.result (.x d (BitVec.ofInt 64 (A.toInt * B.toInt / (2 ^ t.bits : Nat)))) 0 .scalar 3)) ∧
  (Performs (.mulhu g t d a b) s →
    exec (.mulhu g t d a b) s =
      .next (s.result (.x d (BitVec.ofNat 64 (A.toNat * B.toNat / 2 ^ t.bits))) 0 .scalar 3))

/-- When its bundle has issued and its guard is true, each of DIV, REM, DIVU, REMU answers a next state in which the
quotient or remainder of the w-bit operands is in flight to xd through the divider: division by zero gives all ones
(DIV: -1, DIVU: 2^w - 1) and the dividend as remainder, the most negative number over -1 gives itself and remainder 0,
and everything else truncates toward zero with the remainder taking the sign of the dividend.
(06_scalar_and_control.md, R132, R131, R128) -/
def Obligations.IntegerDivision : Prop :=
  ∀ (s : State) (g : Guard) (t : Ty) (d : Fin 32) (a b : Src),
  let A : BitVec t.bits := (s.X 1 a).setWidth t.bits
  let B : BitVec t.bits := (s.X 2 b).setWidth t.bits
  t.isInt = true →
  (Performs (.div g t d a b) s →
    exec (.div g t d a b) s =
      .next (s.result (.x d (if B = 0 then -1 else (A.sdiv B).signExtend 64)) 0 .scalar (divLat t) true)) ∧
  (Performs (.rem g t d a b) s →
    exec (.rem g t d a b) s =
      .next (s.result (.x d (if B = 0 then A.signExtend 64 else (A.srem B).signExtend 64)) 0 .scalar (divLat t) true)) ∧
  (Performs (.divu g t d a b) s →
    exec (.divu g t d a b) s =
      .next (s.result (.x d (if B = 0 then BitVec.ofNat 64 (2 ^ t.bits - 1) else (A / B).setWidth 64)) 0 .scalar (divLat t) true)) ∧
  (Performs (.remu g t d a b) s →
    exec (.remu g t d a b) s =
      .next (s.result (.x d (if B = 0 then A.setWidth 64 else (A % B).setWidth 64)) 0 .scalar (divLat t) true))

/-- When its bundle has issued and its guard is true, each of AND, ANDI, OR, ORI, XOR, XORI, SHL, SHLI, SHR, SHRI,
SAR, SARI answers a next state in which the w-bit result is in flight to xd for 1 cycle with no flags: a register
shift takes the amount modulo w, an immediate shift the immediate, SHR is zero-extended and the others are
sign-extended. (06_scalar_and_control.md, R131, R133, R128) -/
def Obligations.IntegerLogicAndShifts : Prop :=
  ∀ (s : State) (g : Guard) (t : Ty) (d : Fin 32) (a b : Src) (imm : BitVec 36),
  let A : BitVec t.bits := (s.X 1 a).setWidth t.bits
  let B : BitVec t.bits := (s.X 2 b).setWidth t.bits
  let I : BitVec t.bits := (imm.signExtend 64).setWidth t.bits
  let out : Word → Host.Outcome State Fault Refusal := fun v => .next (s.result (.x d v) 0 .scalar 1)
  t.isInt = true →
  (Performs (.and g t d a b) s → exec (.and g t d a b) s = out ((A &&& B).signExtend 64)) ∧
  (Performs (.andi g t d a imm) s → exec (.andi g t d a imm) s = out ((A &&& I).signExtend 64)) ∧
  (Performs (.or g t d a b) s → exec (.or g t d a b) s = out ((A ||| B).signExtend 64)) ∧
  (Performs (.ori g t d a imm) s → exec (.ori g t d a imm) s = out ((A ||| I).signExtend 64)) ∧
  (Performs (.xor g t d a b) s → exec (.xor g t d a b) s = out ((A ^^^ B).signExtend 64)) ∧
  (Performs (.xori g t d a imm) s → exec (.xori g t d a imm) s = out ((A ^^^ I).signExtend 64)) ∧
  (Performs (.shl g t d a b) s → exec (.shl g t d a b) s = out ((A <<< (B.toNat % t.bits)).signExtend 64)) ∧
  (Performs (.shr g t d a b) s → exec (.shr g t d a b) s = out ((A >>> (B.toNat % t.bits)).setWidth 64)) ∧
  (Performs (.sar g t d a b) s → exec (.sar g t d a b) s = out ((A.sshiftRight (B.toNat % t.bits)).signExtend 64)) ∧
  (imm.toNat < t.bits →
    (Performs (.shli g t d a imm) s → exec (.shli g t d a imm) s = out ((A <<< imm.toNat).signExtend 64)) ∧
    (Performs (.shri g t d a imm) s → exec (.shri g t d a imm) s = out ((A >>> imm.toNat).setWidth 64)) ∧
    (Performs (.sari g t d a imm) s → exec (.sari g t d a imm) s = out ((A.sshiftRight imm.toNat).signExtend 64)))

/-- When its bundle has issued and its guard is true, CLZ (CTZ) answers a next state with a number n in flight to xd
such that the n highest (lowest) of the w bits are zero and, when n is below w, the next one is set; POPC one with the
number of set bits; MIN and MAX the signed and MINU and MAXU the unsigned choice, sign- and zero-extended.
(06_scalar_and_control.md, R131, R128) -/
def Obligations.IntegerCountsAndChoices : Prop :=
  ∀ (s : State) (g : Guard) (t : Ty) (d : Fin 32) (a b : Src),
  let A : BitVec t.bits := (s.X 1 a).setWidth t.bits
  let B : BitVec t.bits := (s.X 2 b).setWidth t.bits
  let out : Word → Host.Outcome State Fault Refusal := fun v => .next (s.result (.x d v) 0 .scalar 1)
  t.isInt = true →
  (Performs (.clz g t d a) s → ∃ n, n ≤ t.bits ∧ exec (.clz g t d a) s = out (BitVec.ofNat 64 n) ∧
    (∀ k < n, A.getMsbD k = false) ∧ (n < t.bits → A.getMsbD n = true)) ∧
  (Performs (.ctz g t d a) s → ∃ n, n ≤ t.bits ∧ exec (.ctz g t d a) s = out (BitVec.ofNat 64 n) ∧
    (∀ k < n, A.getLsbD k = false) ∧ (n < t.bits → A.getLsbD n = true)) ∧
  (Performs (.popc g t d a) s →
    exec (.popc g t d a) s = out (BitVec.ofNat 64 ((List.range t.bits).filter fun k => A.getLsbD k).length)) ∧
  (Performs (.min g t d a b) s → exec (.min g t d a b) s = out ((if A.slt B then A else B).signExtend 64)) ∧
  (Performs (.max g t d a b) s → exec (.max g t d a b) s = out ((if A.slt B then B else A).signExtend 64)) ∧
  (Performs (.minu g t d a b) s → exec (.minu g t d a b) s = out ((if A.ult B then A else B).setWidth 64)) ∧
  (Performs (.maxu g t d a b) s → exec (.maxu g t d a b) s = out ((if A.ult B then B else A).setWidth 64))

/-- When its bundle has issued and its guard is true, MOVW answers a next state with its sign-extended immediate in
flight to xd, MOVHI one with the immediate over bits 63 to 42 and the old bits 41 to 0 of xd, EXTB one with the field
of len bits at pos extended by sign or zero, and INSB one with the field replaced and every other bit of xd kept, for
every pos and len with pos + len at most 64. (06_scalar_and_control.md, R134, R135, R128) -/
def Obligations.ConstantsAndBitFields : Prop :=
  ∀ (s : State) (g : Guard) (d : Fin 32) (a : Src) (m : BitVec 42) (h : BitVec 22) (pos len1 : BitVec 6) (sign : Bool),
  let out : Word → Host.Outcome State Fault Refusal := fun v => .next (s.result (.x d v) 0 .scalar 1)
  let A := s.X 1 a
  let D := s.bank.xr d
  let n := len1.toNat + 1
  (Performs (.movw g d m) s → exec (.movw g d m) s = out (m.signExtend 64)) ∧
  (Performs (.movhi g d h) s → exec (.movhi g d h) s = out (h ++ D.setWidth 42)) ∧
  (pos.toNat + n ≤ 64 →
    (Performs (.extb g d a pos len1 sign) s →
      exec (.extb g d a pos len1 sign) s =
        out (if sign then ((A >>> pos.toNat).setWidth n).signExtend 64 else ((A >>> pos.toNat).setWidth n).setWidth 64)) ∧
    (Performs (.insb g d a pos len1) s →
      ∃ v, exec (.insb g d a pos len1) s = out v ∧
        ∀ k < 64, v.getLsbD k = if pos.toNat ≤ k ∧ k < pos.toNat + n then A.getLsbD (k - pos.toNat) else D.getLsbD k))

/-- When its bundle has issued and its guard is true, CMP and CMPI answer a next state with the truth of their
condition on the w-bit operands in flight to pd, PLOG one with bit 2 P(a) + P(b) of its truth table, and PMOV one with
the value its mode names. When its bundle has issued and its guard is true, SEL answers a next state with X(a) in
flight to xd if P(c) holds, else X(b), for every predicate code and with nothing else changed.
(06_scalar_and_control.md, R136, R138, R128, R137) -/
def Obligations.ComparesAndPredicates : Prop :=
  (∀ (s : State) (g : Guard) (t : Ty) (d e p q : Fin 16) (x : Fin 32) (a b : Src) (cond : ICond) (imm : BitVec 32) (f : BitVec 4),
    let A : BitVec t.bits := (s.X 1 a).setWidth t.bits
    let B : BitVec t.bits := (s.X 2 b).setWidth t.bits
    let I : BitVec t.bits := (imm.signExtend 64).setWidth t.bits
    let holds : BitVec t.bits → Bool := fun C =>
      match cond with
      | .eq => A == C
      | .ne => A != C
      | .lt => A.slt C
      | .ge => !A.slt C
      | .ltu => A.ult C
      | .geu => !A.ult C
    let out : Fin 16 → Bool → Host.Outcome State Fault Refusal := fun r v => .next (s.result (.p r v) 0 .scalar 1)
    (t.isInt = true →
      (Performs (.cmp g t d a b cond) s → exec (.cmp g t d a b cond) s = out d (holds B)) ∧
      (Performs (.cmpi g t d a cond imm) s → exec (.cmpi g t d a cond imm) s = out d (holds I))) ∧
    (Performs (.plog g d p q f) s →
      exec (.plog g d p q f) s =
        out d (match s.P p, s.P q with
          | false, false => f.getLsbD 0 | false, true => f.getLsbD 1
          | true, false => f.getLsbD 2 | true, true => f.getLsbD 3)) ∧
    (Performs (.pmov g (.fx d a)) s → exec (.pmov g (.fx d a)) s = out d (s.X 1 a != 0)) ∧
    (Performs (.pmov g (.tx x p)) s →
      exec (.pmov g (.tx x p)) s = .next (s.result (.x x (if s.P p then 1 else 0)) 0 .scalar 1)) ∧
    (Performs (.pmov g (.pp d e)) s → exec (.pmov g (.pp d e)) s = out d (s.P e))) ∧
(∀ (s : State) (g : Guard) (d : Fin 32) (a b : Src) (c : Fin 16), Performs (.sel g d a b c) s →
    (s.P c = true → exec (.sel g d a b c) s = .next (s.result (.x d (s.X 1 a)) 0 .scalar 1)) ∧
    (s.P c = false → exec (.sel g d a b c) s = .next (s.result (.x d (s.X 2 b)) 0 .scalar 1)))

/-- When its bundle has issued and its guard is true, each of FADD, FSUB, FMUL, FFMA, FDIV, FSQRT and FCVT to a float
answers a next state in which one value below 2^w is in flight to xd with its flags for fp.sst, after the latency of
its class (4, the divider's, or 2): the exact sum, difference, product, fused result, quotient or converted value
rounded once by the mode, with the sign IEEE 754 gives a zero, infinities and the results that are no number (the
canonical quiet NaN) as IEEE 754 has them, and an overflow going where R141 sends it. A signaling operand raises NV
and a quiet one alone nothing (an FFMA of zero times infinity with a quiet addend is left open, log 11); an operation
that has no number to answer raises NV, a quotient of a nonzero number by zero DZ, and a rounding OF, UF and NX,
tininess being detected after rounding. FSQRT of a positive number is the root rounded by the mode, with NX when
inexact; of -0 it is -0, of +infinity +infinity, and of any other negative operand the NaN with NV. FCVT from a float
to an integer rounds to an integer by the mode: one within the range is the value, with NX when inexact; beyond it the
nearer bound with NV, as for an infinity; a NaN gives 0 with NV. FCMP answers a next state with the truth of its
condition on the two operands in flight, to land after 2 cycles: EQ, LT and LE by their order, with +0 = -0, NE the
negation of EQ, UN for a NaN; where an operand is a NaN, it is false for EQ, LT and LE and true for UN and NE, and LT
and LE raise the invalid flag. (06_scalar_and_control.md, R139, R140, R141, R142, R128, R143) -/
def Obligations.ScalarFloats : Prop :=
  (∀ (s : State) (g : Guard) (t : Ty) (d : Fin 32) (a b c : Src) (rm : Rm),
    let F : FFmt := tyFmt t
    let A : Val := fArg t (s.X 1 a)
    let B : Val := fArg t (s.X 2 b)
    let C : Val := fArg t (s.X 3 c)
    let out : Nat → Flags → Nat → Bool → Host.Outcome State Fault Refusal :=
      fun v fl lat dv => .next (s.result (.x d (BitVec.ofNat 64 v)) fl .scalar lat dv)
    let quiet (l : List Val) (fl : Flags) : Prop := (∃ x ∈ l, x.isNan = true) → (∀ x ∈ l, x.isSig = false) → fl = 0
    t.isInt = false →
    (Performs (.fadd g t d a b rm) s → ∃ v fl, v < 2 ^ t.bits ∧ exec (.fadd g t d a b rm) s = out v fl 4 false ∧
      F.Answers rm [A, B] (A.exact.add rm B.exact) false v fl ∧ quiet [A, B] fl) ∧
    (Performs (.fsub g t d a b rm) s → ∃ v fl, v < 2 ^ t.bits ∧ exec (.fsub g t d a b rm) s = out v fl 4 false ∧
      F.Answers rm [A, B] (A.exact.add rm B.exact.neg) false v fl ∧ quiet [A, B] fl) ∧
    (Performs (.fmul g t d a b rm) s → ∃ v fl, v < 2 ^ t.bits ∧ exec (.fmul g t d a b rm) s = out v fl 4 false ∧
      F.Answers rm [A, B] (A.exact.mul B.exact) false v fl ∧ quiet [A, B] fl) ∧
    (Performs (.ffma g t d a b c rm) s → ∃ v fl, v < 2 ^ t.bits ∧ exec (.ffma g t d a b c rm) s = out v fl 4 false ∧
      F.Answers rm [A, B, C] ((A.exact.mul B.exact).add rm C.exact) false v fl ∧
      (A.exact.mul B.exact = .nan → A.isNan = true ∨ B.isNan = true → quiet [A, B, C] fl) ∧
      (A.exact.mul B.exact ≠ .nan → quiet [A, B, C] fl)) ∧
    (Performs (.fdiv g t d a b rm) s → ∃ v fl, v < 2 ^ t.bits ∧ exec (.fdiv g t d a b rm) s = out v fl (divLat t) true ∧
      F.Answers rm [A, B] (A.exact.div B.exact) A.isFin v fl ∧ quiet [A, B] fl) ∧
    (Performs (.fsqrt g t d a rm) s → ∃ v fl, v < 2 ^ t.bits ∧ exec (.fsqrt g t d a rm) s = out v fl (divLat t) true ∧
      (A.isNan = true → v = F.qnan ∧ fl = if A.isSig then Flags.nv else 0) ∧
      (A.isInf = true → if A.sign then v = F.qnan ∧ fl = Flags.nv else v = F.infCode false ∧ fl = 0) ∧
      (A.isFin = true → A.rat = 0 → v = F.signed A.sign 0 ∧ fl = 0) ∧
      (A.isFin = true → A.rat < 0 → v = F.qnan ∧ fl = Flags.nv) ∧
      (A.isFin = true → 0 < A.rat → F.RoundedRoot rm A.rat v ∧
        fl = if (F.decode v).rat * (F.decode v).rat = A.rat then 0 else Flags.nx)) ∧
    (∀ (frm : Ty) (u : Bool), Performs (.fcvt g t d a rm frm u) s →
      let low : BitVec frm.bits := (s.X 1 a).setWidth frm.bits
      ∃ v fl, v < 2 ^ t.bits ∧ exec (.fcvt g t d a rm frm u) s = out v fl 2 false ∧
      (frm.isInt = true → F.Answers rm [] (.num (if u then (low.toNat : Rat) else (low.toInt : Rat)) false) false v fl) ∧
      (frm.isInt = false → F.Answers rm [fArg frm (s.X 1 a)] (fArg frm (s.X 1 a)).exact false v fl ∧
        quiet [fArg frm (s.X 1 a)] fl)) ∧
    (∀ (i : Ty) (u : Bool), i.isInt = true → Performs (.fcvt g i d a rm t u) s →
      let lo : Int := if u then 0 else -(2 ^ (i.bits - 1) : Nat)
      let hi : Int := if u then (2 ^ i.bits : Nat) - 1 else (2 ^ (i.bits - 1) : Nat) - 1
      ∃ (v : BitVec i.bits) (fl : Flags),
        let n : Int := if u then (v.toNat : Int) else v.toInt
        exec (.fcvt g i d a rm t u) s = .next (s.result (.x d (if u then v.setWidth 64 else v.signExtend 64)) fl .scalar 2) ∧
        (A.isNan = true → n = 0 ∧ fl = Flags.nv) ∧
        (A.isInf = true → n = (if A.sign then lo else hi) ∧ fl = Flags.nv) ∧
        (A.isFin = true → ∃ k : Int, RoundsBy rm A.rat k ∧
          (lo ≤ k → k ≤ hi → n = k ∧ (fl = if (k : Rat) = A.rat then 0 else Flags.nx)) ∧
          (k < lo → n = lo ∧ fl = Flags.nv) ∧ (hi < k → n = hi ∧ fl = Flags.nv)))) ∧
(∀ (s : State) (g : Guard) (t : Ty) (d : Fin 16) (a b : Src) (cond : FCond),
    let A : Val := fArg t (s.X 1 a)
    let B : Val := fArg t (s.X 2 b)
    Performs (.fcmp g t d a b cond) s →
    ∃ v fl, exec (.fcmp g t d a b cond) s = .next (s.result (.p d v) fl .scalar 2) ∧
      (A.isNan = true ∨ B.isNan = true →
        v = (match cond with | .eq => false | .lt => false | .le => false | .un => true | .ne => true) ∧
        (cond = .lt ∨ cond = .le → fl = Flags.nv)) ∧
      (A.isFin = true → B.isFin = true → fl = 0 ∧
        v = (match cond with
          | .eq => decide (A.rat = B.rat) | .lt => decide (A.rat < B.rat) | .le => decide (A.rat ≤ B.rat)
          | .un => false | .ne => decide (A.rat ≠ B.rat))) ∧
      (A.isInf = true → B.isNan = false →
        let below : Bool := A.sign && !(B.isInf && B.sign)
        let same : Bool := B.isInf && B.sign == A.sign
        v = (match cond with | .eq => same | .lt => below | .le => below || same | .un => false | .ne => !same)) ∧
      (B.isInf = true → A.isFin = true →
        v = (match cond with | .eq => false | .lt => !B.sign | .le => !B.sign | .un => false | .ne => true)))

/-- When its bundle has issued and its guard is true, a relative branch answers a next state whose bundle records the
target h + SExt(offset, 32) (an index above 16,383 where that is negative), a register branch one that records X(a),
or in the link form its bits 13 to 0; BRP records none when its predicate fails; CALL and CALLX also put h + 1 + n in
flight to x31 and xd, to land after 1 cycle, a latency that the model deduces (log 22). (06_scalar_and_control.md,
R145, R146, R147, R128) -/
def Obligations.BranchesNameTheirTarget : Prop :=
  ∀ (s : State) (g : Guard) (off : BitVec 32) (neg link : Bool) (p : Fin 16) (a : Src) (d : Fin 32),
  let goes : Nat → State := fun T => s.modTail fun tl => { tl with target := some T }
  let back : Word := BitVec.ofNat 64 (s.issue.hdr + 1 + s.issue.n)
  let h : Int := (s.issue.hdr : Int) + off.toInt
  let rel : Nat → Prop := fun T => (0 ≤ h → (T : Int) = h) ∧ (h < 0 → 16383 < T)
  let reg : Nat := if link then (s.X 1 a).toNat % 2 ^ 14 else (s.X 1 a).toNat
  s.issue.hdr ≤ 16383 →
  (Performs (.br g off) s → ∃ T, rel T ∧ exec (.br g off) s = .next (goes T)) ∧
  (Performs (.brp g off neg p) s → s.P p ≠ neg → ∃ T, rel T ∧ exec (.brp g off neg p) s = .next (goes T)) ∧
  (Performs (.brp g off neg p) s → s.P p = neg → exec (.brp g off neg p) s = .next s) ∧
  (Performs (.call g off) s → ∃ T, rel T ∧ exec (.call g off) s = .next ((goes T).result (.x 31 back) 0 .scalar 1)) ∧
  (Performs (.brx g a link) s → exec (.brx g a link) s = .next (goes reg)) ∧
  (Performs (.callx g d a link) s → exec (.callx g d a link) s = .next ((goes reg).result (.x d back) 0 .scalar 1)) ∧
  (Performs (.ret g a) s → exec (.ret g a) s = .next (goes (s.X 1 a).toNat))

/-- When its bundle has issued and its guard is true, a LOOP or LOOPX of count 1 or more answers a next state with an
entry on top of the loop stack that starts after the bundle, ends at the index R148 gives, counts from 1 and is open,
s0 alone set when it has stages; one of count 0 pushes nothing and moves only the index after its bundle, to the one
after the bundle whose header stands at the end, without counting as a transfer for an outer closing point (a deduced
reading, log 21); CLOSE sets closed in the top entry. (05_issued.md, 06_scalar_and_control.md, R148, R149, R123, R125) -/
def Obligations.LoopsOpenAndClose : Prop :=
  ∀ (s : State) (g : Guard) (off : BitVec 32) (a : Src) (dist : BitVec 14) (st : BitVec 4) (n : BitVec 12),
  let h : Int := (s.issue.hdr : Int) + off.toInt
  let push : Nat → Nat → State := fun stop count => s.modBank fun b =>
    { b with
      loops := { start := s.issue.hdr + 1 + s.issue.n, stop := stop, n := count, i := 1, stages := st.toNat, closed := false } :: b.loops,
      s := if st = 0 then b.s else 1 }
  s.issue.hdr ≤ 16383 → 0 ≤ h →
  (Performs (.loop g off st n) s → n ≠ 0 → exec (.loop g off st n) s = .next (push h.toNat n.toNat)) ∧
  (Performs (.loop g off st n) s → n = 0 →
    exec (.loop g off st n) s = .next (s.modTail fun tl => { tl with fall := s.afterBundle h.toNat })) ∧
  (Performs (.loopx g a dist st) s → s.X 1 a ≠ 0 →
    exec (.loopx g a dist st) s = .next (push (s.issue.hdr + dist.toNat) (s.X 1 a).toNat)) ∧
  (Performs (.loopx g a dist st) s → s.X 1 a = 0 →
    exec (.loopx g a dist st) s = .next (s.modTail fun tl => { tl with fall := s.afterBundle (s.issue.hdr + dist.toNat) })) ∧
  (Performs (.close g) s →
    exec (.close g) s =
      .next (s.modBank fun b => { b with loops := match b.loops with | [] => [] | e :: r => { e with closed := true } :: r }))

/-- When a bundle without transfer, trap, yield, task end or wait stands at its end, and its header is the closing
point of the top entry, no predicate write being in flight, the closing point answers a next state: of an entry
without stages the context goes back to its start with the count raised while the count is below n and the entry open,
and else pops it and falls through; of an entry with m stages s0 takes whether it went on, s1 to s(m-1) their lower
neighbours, and the entry is popped exactly when s0 to s(m-1) are then all clear. When a bundle that recorded a target
stands at its end with nothing else to do, the closing point answers a next state in which the context's program
counter is the target, the from index is the bundle's header index, and its loop stack and predicates are as before.
(04_fetched.md, 05_issued.md, 06_scalar_and_control.md, R124, R130, R91, R99) -/
def Obligations.ClosingPointLoopAction : Prop :=
  (∀ (s : State) (g : Agent) (tl : Tail) (e : LoopEntry) (below : List LoopEntry),
    let k := s.ctx g
    let go : Bool := decide (e.i < e.n) && !e.closed
    let e' : LoopEntry := if go then { e with i := e.i + 1 } else e
    let turned : List LoopEntry → BitVec 8 → Nat → State := fun l p pc => s.modCtx g fun c =>
      { c with bank := { c.bank with loops := l, s := p }, pc := pc, src := tl.hdr, tail := none }
    k.tail = some tl → tl.waits = [] → tl.target = none → tl.soft = none → tl.refused = none → tl.yields = false →
    tl.ends = false → tl.eret = .none → k.bank.loops = e :: below → e.stop = tl.hdr →
    (∀ r ∈ k.flight, r.write.isPred = false) → e.stages ≤ 8 →
    (e.stages = 0 →
      exec (.closingPoint g) s =
        .next (if go then turned (e' :: below) k.bank.s e.start else turned below k.bank.s tl.fall)) ∧
    (e.stages ≠ 0 → ∃ p : BitVec 8,
      (∀ j < 8, p.getLsbD j = if e.stages ≤ j then k.bank.s.getLsbD j else if j = 0 then go else k.bank.s.getLsbD (j - 1)) ∧
      exec (.closingPoint g) s =
        .next (if (∀ j < e.stages, p.getLsbD j = false) then turned below p tl.fall else turned (e' :: below) p e.start))) ∧
(∀ (s : State) (g : Agent) (tl : Tail) (T : Nat),
    (s.ctx g).tail = some tl → tl.waits = [] → tl.target = some T → tl.soft = none → tl.refused = none →
    tl.yields = false → tl.ends = false → tl.eret = .none →
    exec (.closingPoint g) s = .next (s.modCtx g fun c => { c with pc := T, src := tl.hdr, tail := none }))

/-- When its bundle has issued and its guard is true, CLOSE answers a next state in which the top loop entry, where
there is one, is closed, and YIELD one in which, at the end of a bundle that is no closing point and with no curtain,
the first ready context after the running one runs, or the same one where no other is ready; where the bundle still
has to wait for what it asked, the context is blocked at once, the bundle yielding no more, and the first other ready
context runs, or none; neither changes an x, v, p, s, panel, handle, window or ring register of any context, nor any
result in flight; and YIELD under the guard !p0 changes nothing at all. (06_scalar_and_control.md, R116, R117, R149) -/
def Obligations.YieldGivesUpTheTile : Prop :=
  ∀ (s : State) (g : Guard) (t : TileId) (c : Fin 4),
  let A : Agent := .ctx t c
  s.issue.agent = A →
  (Performs (.close g) s → ∃ u, exec (.close g) s = .next u ∧
    (∀ e r, (s.ctx A).bank.loops = e :: r → (u.ctx A).bank.loops = { e with closed := true } :: r) ∧
    ∀ B, (u.ctx B).flight = (s.ctx B).flight ∧ (u.ctx B).bank = { (s.ctx B).bank with loops := (u.ctx B).bank.loops }) ∧
  (Performs (.yield g) s → (s.ctx A).tail = some s.openTail → (s.ctx A).bank.closesAt s.issue.hdr = false →
    (s.tile t).run = some c → (s.tile t).stopReq = false →
    ∃ u v, exec (.yield g) s = .next u ∧ exec (.closingPoint A) u = .next v ∧
    (v.tile t).run =
      (match [c + 1, c + 2, c + 3].find? fun k => ((s.tile t).ctx k).sel = .ready with | some k => some k | none => some c) ∧
    (v.ctx A).pc = s.issue.hdr + 1 + s.issue.n ∧
    ∀ B, (v.ctx B).bank = (s.ctx B).bank ∧ (v.ctx B).flight = (s.ctx B).flight ∧ (v.ctx B).sel = (s.ctx B).sel) ∧
  (∀ tl : Tail, (s.ctx A).tail = some tl → tl.yields = true → tl.waits ≠ [] → (∀ w ∈ tl.waits, s.waitStands t c w = true) →
    tl.ends = false → tl.soft = none → tl.refused = none → tl.eret = .none → (s.tile t).run = some c → (s.tile t).stopReq = false →
    ∃ v, exec (.closingPoint A) s = .next v ∧ (v.ctx A).tail = some { tl with yields := false } ∧
    (v.tile t).run = [c + 1, c + 2, c + 3].find? (fun k => ((s.tile t).ctx k).sel = .ready) ∧
    ∀ B, (v.ctx B).bank = (s.ctx B).bank ∧ (v.ctx B).flight = (s.ctx B).flight ∧
      (v.ctx B).sel = if B = A then .blocked else (s.ctx B).sel) ∧
  (s.issue.cleared = true → exec (.yield ⟨0, true⟩) s = .next s)

/-- When its bundle has issued and its guard is true, ENDT answers a next state in which the bundle ends its task. The
closing point of that bundle answers, once every result of the context has landed, a state in which the context is
idle, its loop stack, whatever it held, is empty, s0 to s7 are clear, its node is marked ended, and the first other
ready context runs, or none; while a result is in flight the context is blocked, or stopped under a pending curtain
(what it asks a home slice for then goes unless it is decided), nothing else of it or of another context changes, and
the tile goes to the next ready context in the same way. (05_issued.md, 06_scalar_and_control.md, R150, R116, R328) -/
def Obligations.TaskEnds : Prop :=
  ∀ (s : State) (g : Guard) (t : TileId) (c : Fin 4),
  let A : Agent := .ctx t c
  s.issue.agent = A → Performs (.endt g) s →
  (s.ctx A).tail = some s.openTail → (s.tile t).run = some c →
  ∃ u v, exec (.endt g) s = .next u ∧ u = s.modCtx A (fun k => { k with tail := some { s.openTail with ends := true } }) ∧
    exec (.closingPoint A) u = .next v ∧
    (v.tile t).run = [c + 1, c + 2, c + 3].find? (fun k => ((s.tile t).ctx k).sel = .ready) ∧
    ((s.ctx A).flight ≠ [] → ∀ B, v.ctx B =
      if B = A then (if (s.tile t).stopReq then (u.ctx A).stop else { u.ctx A with sel := .blocked }) else u.ctx B) ∧
    ((s.ctx A).flight = [] → (v.ctx A).sel = .idle ∧ (v.ctx A).bank.loops = [] ∧ (v.ctx A).bank.s = 0 ∧ (v.ctx A).tail = none ∧
    (v.ctx A).bank.x = (s.ctx A).bank.x ∧
    (∀ n, (s.tile t).pr.nodes[(s.ctx A).node.toNat]? = some n → (v.tile t).pr.nodes[(s.ctx A).node.toNat]? = some { n with ended := true }))

/-- When its bundle has issued and its guard is true, TRAP answers a next state in which the bundle ends with its
code. Where no result is in flight, no handler runs and the vector is valid, the closing point of that bundle answers
one in which the context stands at the vector's index in a handler, the cause is a trap of code 0x04 with TRAP's slot,
info0 is the 16-bit code, and the return index, the saved predicates and the saved loop entries are the program
counter, predicates and loop stack to which the same closing point brings the context without the TRAP: after the
bundle's control transfer or, in a bundle at a closing point, after its loop action; so in a bundle that is neither,
the index of the next bundle and the predicates and loop stack as they stand. The loop stack is then empty.
(06_scalar_and_control.md, 15_interrupted.md, R153, R317, R319) -/
def Obligations.SoftwareTrapIsTaken : Prop :=
  ∀ (s : State) (g : Guard) (A : Agent) (code : BitVec 16) (tl : Tail),
  s.issue.agent = A → Performs (.trap g code) s → s.issue.slot < 8 →
  (s.ctx A).tail = some tl → tl.waits = [] → tl.soft = none → tl.refused = none → tl.yields = false → tl.ends = false → tl.eret = .none →
  ∃ u, exec (.trap g code) s = .next u ∧
  u = s.modCtx A (fun k => { k with tail := some { tl with soft := some (s.issue.slot, code) } }) ∧
  ((s.ctx A).flight = [] → (s.ctx A).trap.handling = false → (s.ctx A).trap.vec.getLsbD 63 = true →
  ∃ v w, exec (.closingPoint A) u = .next v ∧ exec (.closingPoint A) s = .next w ∧
    (v.ctx A).pc = (s.ctx A).trap.vec.toNat % 2 ^ 14 ∧
    (v.ctx A).trap.handling = true ∧
    (v.ctx A).trap.cause = BitVec.ofNat 64 (s.issue.slot * 256 + 0x04) ∧
    (v.ctx A).trap.ret = BitVec.ofNat 64 ((w.ctx A).pc % 2 ^ 14) ∧
    (v.ctx A).trap.info0 = code.setWidth 64 ∧ (v.ctx A).trap.info1 = 0 ∧
    (v.ctx A).trap.pred = (w.ctx A).bank.predImage ∧ (v.ctx A).trap.loops = (w.ctx A).bank.loops ∧
    (v.ctx A).bank.loops = [] ∧ (v.ctx A).bank.x = (s.ctx A).bank.x ∧
    (tl = s.openTail → (s.ctx A).bank.closesAt s.issue.hdr = false →
      (w.ctx A).pc = s.issue.hdr + 1 + s.issue.n ∧ (w.ctx A).bank = (s.ctx A).bank))

/-- When a trap waits for a context whose results have all landed, its delivery answers a next state: with a valid
vector and no handler running, cause, ret, src, info0 and info1 hold what the trap names, pred the predicates and the
saved loop entries the loop stack, the stack is emptied, handling is set and the program counter is the vector's
index, where, under a pending curtain, the context stops and gives up the tile; with a handler running the context
stops with system fault 0x26, and without a valid vector with 0x27. A store or atomic that its home slice refused is
reported so, as reservation exceeded, at the end of its bundle: cause 0x08 with slot 3, the handle and the offset, and
the index to which the bundle's transfer or loop action brings the context. The issue checks of a syllable whose pops
pass give the code and info words of R320: an operand that WINSET, RINGSET, RADV, RREL, RSV, UNRSV, FLKADD, FLKDEL,
MERGE, MRGDRN, NETRED, NETBC, BAR, REDOPEN or a link instruction does not allow, a record of a copy, sequencer or page
pass that R194 to R197 and R274 do not allow, and CSEL's panel as a source of MMA or MMAS, 0x03 with its value (of a
ring removed or with loads to land, a closed stream, a stage mask or a link's port or stream, its number, log 74); a
record, root or crank outside the paddock a route fault; a store, atomic or DISC through a cleared handle 0x05 with
handle and offset, and one that the handle's page, rights, alignment or kind does not allow, or a load or MGATH lane
that it does not, 0x06 with handle, for MGATH the lowest such lane, and offset; too few scale entries 0x07 with the
queue and the number needed; a ring too small for a matrix operand 0x03; else nothing is raised. (07_fed.md,
08_access_and_copy.md, 11_matrix.md, 12_attention_by_pages.md, 13_synchronised.md, 14_two_boxes.md, R196, R311, R319,
R320, R327, R328) -/
def Obligations.TrapDelivery : Prop :=
(∀ (s : State) (t : TileId) (c : Fin 4) (q : TrapReq),
  let A : Agent := .ctx t c
  let k := s.ctx A
  k.pending = some q → k.flight = [] →
  (k.trap.handling = false → k.trap.vec.getLsbD 63 = true →
    exec (.deliver A) s = .next (((s.modCtx A fun x =>
      { x with
        trap := { x.trap with
          cause := BitVec.ofNat 64 (q.isRec.toNat * 2 ^ 63 + (q.slot % 256) * 2 ^ 8 + q.code % 256),
          ret := BitVec.ofNat 64 (q.ret % 2 ^ 14), src := BitVec.ofNat 64 (q.src % 2 ^ 14), info0 := q.info0, info1 := q.info1,
          pred := x.bank.predImage, loops := x.bank.loops, handling := true, queue := q.queue },
        bank := { x.bank with loops := [] },
        pc := x.trap.vec.toNat % 2 ^ 14, src := q.ret, pending := none, stall := 0, ask := none }).modTile t fun T =>
          if T.stopReq then (T.setSel c .stopped).giveUp c else T))) ∧
  (k.trap.handling = true ∨ k.trap.vec.getLsbD 63 = false →
    ∃ u, exec (.deliver A) s = .next u ∧ (u.ctx A).sel = .stopped ∧ (u.ctx A).trap = k.trap ∧
      ∃ f, u.faults = s.faults ++ [f] ∧ f.code = (if k.trap.handling then 0x26 else 0x27) ∧ f.ctx = some c ∧ f.pad = (s.tile t).pad)) ∧
(∀ (s : State) (t : TileId) (c : Fin 4) (tl : Tail) (k : Kept),
    let A : Agent := .ctx t c
    let K : Ctx := s.ctx A
    K.tail = some tl → tl.refused = some k → tl.soft = none → tl.ends = false → tl.eret = .none → tl.waits = [] → K.flight = [] →
    K.trap.handling = false → K.trap.vec.getLsbD 63 = true →
    let w : Ctx := K.goOn tl
    ∃ v, exec (.closingPoint A) s = .next v ∧
      (v.ctx A).pc = K.trap.vec.toNat % 2 ^ 14 ∧ (v.ctx A).trap.handling = true ∧ (v.ctx A).trap.cause = 0x308 ∧
      (v.ctx A).trap.ret = BitVec.ofNat 64 (w.pc % 2 ^ 14) ∧ (v.ctx A).trap.info0 = BitVec.ofNat 64 k.h.val ∧
      (v.ctx A).trap.info1 = BitVec.ofNat 64 k.off ∧ (v.ctx A).trap.pred = w.bank.predImage ∧ (v.ctx A).trap.loops = w.bank.loops ∧
      (v.ctx A).trap.keep = K.trap.keep ∧ (v.ctx A).bank = { w.bank with loops := [] }) ∧
(∀ (s : State) (n : Nat) (g : Guard) (t : Ty) (w : Fin 8) (q h : Fin 16) (a b e : Src) (l : BitVec 5) (y : BitVec 4)
    (imm : BitVec 17) (disp : BitVec 31) (u : Bool) (o : AmoOp) (ord : MemOrd) (sc : Scope) (x : Fin 32),
    let X : Nat := (s.X 1 a).toNat
    let Y : Nat := (s.X 2 b).toNat
    let R : Ring := s.bank.ring q
    let checks (i : Instr) (r : Option Verdict) : Prop :=
      (∀ o ∈ i.operands, popCheckOf s.bank o = none) → s.popError n = none → checkOf s n i = r
    let operand (v : Nat) : Option Verdict := some (.trap 0x03 (some v) 0)
    let H : Handle := s.bank.handle h
    let bad (H : Handle) (rd wr : Bool) (off : Int) (m al : Nat) : Prop :=
      H.frame.toNat / 2 ^ 30 = 1 ∨ (rd = true ∧ H.read = false) ∨ (wr = true ∧ H.write = false) ∨ off % (al : Int) ≠ 0 ∨ off < 0 ∨
        (if H.large then 2 ^ 29 else 2 ^ 16 : Int) < off + m
    let info (off : Int) : Nat := (off % 2 ^ 64).toNat
    let strict (rd wr : Bool) (off : Int) (m al : Nat) (r : Option Verdict) : Prop :=
      (H.valid = false → r = some (.trap 0x05 (some h.val) (info off))) ∧
      (H.valid = true → bad H rd wr off m al → r = some (.trap 0x06 (some h.val) (info off))) ∧
      (H.valid = true → ¬ bad H rd wr off m al → r = none)
    let loads (off : Int) (m al : Nat) (r : Option Verdict) : Prop :=
      if H.valid = true ∧ bad H true false off m al then r = some (.trap 0x06 (some h.val) (info off)) else r = none
    let J : Int := X + disp.toInt
    let k : Nat := X + imm.toNat
    checks (.winset g w a b) (if 0x100000 ≤ X then operand X else if Y = 0 ∨ 0x100000 < Y then operand Y else none) ∧
    checks (.ringset g q a l y) (if l ≠ 0 ∧ 0x100000 ≤ X ∨ X % 2 ^ (y.toNat + l.toNat) ≠ 0 then operand X else none) ∧
    (checks (.radv g q a imm) (if R.lsize = 0 ∨ R.res ≠ R.prod then operand q.val
        else if k ≠ 0 ∧ 2 ^ R.lsize.toNat < (R.prod - R.rel).toNat + k then operand k else none) ∧
      checks (.rrel g q a imm) (if R.lsize = 0 then operand q.val
        else if k ≠ 0 ∧ (R.rd - R.rel).toNat < k then operand k else none)) ∧
    (s.issue.agent.isDrover = false → ∃ r, checks (.mst g t b a h disp) r ∧ strict false true J t.width t.width r) ∧
    (∃ r, checks (.mstv g b a h disp) r ∧ strict false true J 256 4 r) ∧
    (∃ r, checks (.amo g t q a b o ord sc h) r ∧
      if R.lsize = 0 then r = operand q.val else strict true true X t.width t.width r) ∧
    (∃ r, checks (.amocas g t q a b e ord sc h) r ∧
      if R.lsize = 0 then r = operand q.val else strict true true X t.width t.width r) ∧
    (∃ r, checks (.disc g a b h) r ∧
      (H.valid = false → r = some (.trap 0x05 (some h.val) X)) ∧
      (H.valid = true → r = if H.frame.toNat / 2 ^ 30 = 1 ∨ H.write = false ∨ H.unb = false ∨
          Y ≠ 0 ∧ (X % 128 ≠ 0 ∨ Y % 128 ≠ 0 ∨ (if H.large then 2 ^ 29 else 2 ^ 16) < X + Y)
        then some (.trap 0x06 (some h.val) X) else none)) ∧
    (∃ r, checks (.mld g t (.ring q) a h u disp) r ∧ if R.lsize = 0 then r = operand q.val else loads J t.width t.width r) ∧
    (∃ r, checks (.mldv g q a h disp) r ∧ if R.lsize = 0 then r = operand q.val else loads J 256 4 r) ∧
    (∃ r, checks (.mgath g t q a b x) r ∧
      let at_ (j : Nat) : Handle × Nat × Nat :=
        let f : Nat := (s.V 1 a).toNat / 2 ^ (32 * j) % 2 ^ 32
        (s.bank.handle (Fin.ofNat 16 (f / 2 ^ 27 % 16)), f / 2 ^ 27 % 16, f % 2 ^ 27 + Y)
      let fails (j : Nat) : Prop := (s.V 1 a).getLsbD (32 * j + 31) = false ∧ (at_ j).1.valid = true ∧
        bad (at_ j).1 true false (at_ j).2.2 t.width t.width
      (R.lsize = 0 → r = operand q.val) ∧
      (R.lsize ≠ 0 → (∀ j < 64, ¬ fails j) → r = none) ∧
      ∀ j < 64, R.lsize ≠ 0 → fails j → (∀ i < j, ¬ fails i) → r = some (.trap 0x06 (some (256 * j + (at_ j).2.1)) (at_ j).2.2))) ∧
(∀ (s : State) (n : Nat) (g : Guard) (tile : TileId) (ctx : Fin 4) (w st2 : Fin 8) (d e4 : Fin 4) (v : Fin 32) (a b c : Src) (ma mb mc : MSrc)
    (y : Ty) (o : ScanOp) (u sat cu z n8 port bf : Bool) (dom gr kb : BitVec 3) (flk : BitVec 8) (st : BitVec 2) (fa fb : MFmt) (stream : BitVec 6)
    (nflit l1 : BitVec 14) (cidx9 bexp : BitVec 9) (smask : BitVec 16) (sc : Scope) (q : Fin 16),
  s.issue.agent = .ctx tile ctx →
    let T : Tile := s.tile tile
    let X : Nat := (s.X 1 a).toNat
    let Y : Nat := (s.X 2 b).toNat
    let Z : Nat := (s.X 3 c).toNat
    let B : Boundary := s.issue.mem.bnd
    let size : Nat := B.cols.toNat * B.rows.toNat
    let checks (i : Instr) (r : Option Verdict) : Prop :=
      (∀ o ∈ i.operands, popCheckOf s.bank o = none) → s.popError n = none → checkOf s n i = r
    let operand (v : Nat) : Option Verdict := some (.trap 0x03 (some v) 0)
    let route : Option Verdict := some (.fault 0x22)
    let word : Nat → Nat := fun j => recWord s.issue.mem.spad (s.bank.window w) X j
    let dir : Nat := word 0 / 2 ^ 61 % 8
    let etype : Nat := word 0 / 2 ^ 52 % 4
    let cplace : Nat := word 0 / 2 ^ 50 % 4
    let cidx : Nat := word 0 / 2 ^ 41 % 2 ^ 9
    let crank : Nat := word 0 / 2 ^ 32 % 2 ^ 9
    let len : Nat := word 0 % 2 ^ 32
    let es : Nat := if etype = 1 then 2 else 4
    let bad : Prop := 6 ≤ dir ∨ len = 0 ∨ 0x01000000 < len ∨
      (word 0 / 2 ^ 57 % 8 ≠ 0 ∧ dir ≠ 1 ∧ dir ≠ 2 ∧ dir ≠ 5) ∨ (word 0 / 2 ^ 54 % 8 ≠ 0 ∧ dir ≠ 0 ∧ dir ≠ 3) ∨
      (if dir = 5 then 2 ≤ etype else etype ≠ 0) ∨ (cidx ≠ 0 ∧ cplace ≠ 1 ∧ cplace ≠ 2) ∨ (crank ≠ 0 ∧ cplace ≠ 2) ∨
      ((word 0).testBit 60 = true ∧ cplace = 0) ∨
      (if dir = 0 ∨ dir = 4 then 2 ^ 55 ≤ word 1 else if dir = 3 then 2 ^ 17 ≤ word 1 else 2 ^ 32 ≤ word 1) ∨
      (if dir = 1 ∨ dir = 5 then 2 ^ 55 ≤ word 2 else if dir = 2 then 2 ^ 16 ≤ word 2 else if dir = 4 then 2 ^ 28 ≤ word 2 else 2 ^ 32 ≤ word 2) ∨
      (if cplace = 3 then 2 ^ 55 ≤ word 3 ∨ word 3 % 8 ≠ 0 else word 3 ≠ 0) ∨ ((dir = 2 ∨ dir = 4) ∧ len % 128 ≠ 0) ∨
      (dir = 4 ∧ 1024 < word 2 % 2 ^ 10 + len / 128) ∨ (dir = 3 ∧ 0x20000 < word 1 + len) ∨
      (dir = 5 ∧ (len % es ≠ 0 ∨ word 1 % es ≠ 0 ∨ word 2 % es ≠ 0))
    let outside : Prop := (cplace = 2 ∧ size ≤ crank) ∨ (dir = 4 ∧
      (B.cols.toNat < word 2 / 2 ^ 10 % 2 ^ 5 + (word 2 / 2 ^ 19 % 2 ^ 5 + 1) ∨ B.rows.toNat < word 2 / 2 ^ 15 % 2 ^ 4 + (word 2 / 2 ^ 24 % 2 ^ 4 + 1)))
    let record (wrong out : Prop) (i : Instr) : Prop := (wrong → checks i (operand X)) ∧ (¬ wrong → out → checks i route) ∧
      (¬ wrong → ¬ out → s.issue.mem.poison = [] → checks i none)
    let copy : Prop := X % 64 ≠ 0 ∨ bad ∨ ∃ j < 8, 4 ≤ j ∧ word j ≠ 0
    let count (k : Nat) (r : Option Verdict) : Option Verdict := if k = 0 ∨ size < k then operand k else r
    let stream4 : Fin 4 := st.toFin
    let there (landed : Bool) (seq : Option Nat) : Prop := ∃ m ∈ T.merges, m.stream = stream4 ∧ (landed = true → m.part = none) ∧ ∀ k, seq = some k → m.seq = k
    let P : Port := if port then s.ports[1] else s.ports[0]
    let bound : Prop := P.bound = true ∧ T.pad ≠ none ∧ P.pad = T.pad
    let entry : Option (Nat × Word) := P.table.find? fun x => x.1 < P.plen.toNat + 1 && x.2.getLsbD 63 && x.2.extractLsb' 56 6 == stream
    let rank : Nat := B.rank tile
    let mine (send : Bool) (x : Word) : Prop := if send = true
      then x.getLsbD 62 = P.side ∧ (x.extractLsb' 47 9).toNat = rank ∧ (x.extractLsb' 36 2).toNat = ctx.val
      else x.getLsbD 62 ≠ P.side ∧ (x.extractLsb' 38 9).toNat = rank ∧ (x.extractLsb' 34 2).toNat = ctx.val
    let linked (send : Bool) (i : Instr) (r : Option Verdict) : Prop := (¬ bound → checks i (operand port.toNat)) ∧
      (bound → (entry = none ∨ ∃ x, entry = some x ∧ ¬ mine send x.2) → checks i (operand stream.toNat)) ∧
      (∀ x, bound → entry = some x → mine send x.2 → checks i r)
    let R : Ring := s.bank.ring q
    let need : Nat := scalesNeeded fa kb
    let avail (k : Bool) : Nat := (s.bank.scale k).length - T.reserved ctx
    let scaled : Option Verdict := if avail false < need then some (.trap 0x07 (some 0) need)
      else if avail true < need then some (.trap 0x07 (some 1) need) else none
    let csel (l : List MSrc) : Option Verdict :=
      if s.issue.ctx.ops.contains .csel = true ∧ .panel (d ^^^ 1) ∈ l then operand (d ^^^ 1).val else scaled;
    record (copy ∨ 3 < dir) outside (.cpy g w a e4) ∧ record (copy ∨ dir ≠ 5) outside (.cpyr g w a e4) ∧
    record (copy ∨ dir ≠ 4) outside (.mcast g w a e4) ∧
    record (X % 128 ≠ 0 ∨ bad ∨ 2 ^ 36 ≤ word 5 ∨ ∃ j < 16, 12 ≤ j ∧ word j ≠ 0) outside (.seq g w a e4) ∧
    record (X % 64 ≠ 0 ∨ word 0 / 2 ^ 52 % 2 ^ 11 ≠ 0 ∨ crank ≠ 0 ∨ 2 ≤ cplace ∨ (cplace = 0 ∧ cidx ≠ 0) ∨ len % 128 ≠ 0 ∨ len < 128 ∨ 0xFF80 < len ∨
      word 1 % 128 ≠ 0 ∨ 2 ^ 55 ≤ word 1 ∨ 2 ^ 24 ≤ word 2 ∨ ∃ j < 8, 3 ≤ j ∧ word j ≠ 0) False (.pgcast g w a e4) ∧
    checks (.rsv g v a dom) (if X = 0 ∨ 1024 < X then operand X else none) ∧ checks (.unrsv g v a dom) (if X = 0 ∨ 1024 < X then operand X else none) ∧
    checks (.flkadd g a flk st) (if 255 < X + flk.toNat then operand (X + flk.toNat) else none) ∧
    checks (.flkdel g a flk) (if 255 < X + flk.toNat then operand (X + flk.toNat) else none) ∧
    (2 ^ 16 ≤ Y ∨ ¬ there true (some Y) → checks (.merge g a b c st) (operand Y)) ∧ (Y < 2 ^ 16 → there true (some Y) → checks (.merge g a b c st) none) ∧
    (let lsz : Nat := X / 2 ^ 24 % 2 ^ 3 + 10
      let lbase : Nat := X % 2 ^ 20
      let wrong : Prop := X / 2 ^ 20 % 2 ^ 4 ≠ 0 ∨ X / 2 ^ 27 % 2 ^ 5 ≠ 0 ∨ X / 2 ^ 41 ≠ 0 ∨ lsz = 17 ∨ lbase % 2 ^ (lsz + 2) ≠ 0 ∨ 0xE0000 < lbase + 4 * 2 ^ lsz ∨
        there false none;
      (wrong → checks (.mrgdrnOpen g a st) (operand X)) ∧ (¬ wrong → checks (.mrgdrnOpen g a st) none)) ∧
    checks (.mrgdrnDrain g a st) (if 65536 < X then operand X else if T.streams[stream4].opened = false then operand st.toNat else none) ∧
    checks (.mrgdrnFin g v st) (if T.streams[stream4].opened = false then operand st.toNat else none) ∧
    checks (.netred g y v a b gr o u sat) (count Y none) ∧ checks (.netbc g y v a b c gr) (count Z (if size ≤ Y then route else none)) ∧
    checks (.bar g st sc smask) (if smask.toNat.testBit T.stage.toNat = false then operand smask.toNat else none) ∧
    checks (.redopen g v a bf bexp l1) (if X % 128 ≠ 0 ∨ 2 ^ 55 ≤ X then operand X else none) ∧
    linked true (.lksendData g w a e4 port stream nflit cu cidx9) (if X % 128 ≠ 0 then operand X else none) ∧
    linked false (.lkrecvPost g w a e4 port stream nflit cu cidx9) (if X % 128 ≠ 0 then operand X else none) ∧
    linked true (.lksendRst g a port stream) none ∧ linked false (.lkrecvRst g a port stream) none ∧
    (¬ bound → checks (.lkrecvFrame g v port) (operand port.toNat)) ∧ (bound → checks (.lkrecvFrame g v port) none) ∧
    checks (.mma g d ma mb c fa fb kb z) (csel [ma, mb]) ∧ checks (.mmas g d ma mb mc fa fb kb z n8) (csel [ma, mb, mc]) ∧
    (let bytes : Nat := 32 * (32 * (kb.toNat + 1) * fa.bits / 8);
      (R.lsize = 0 → checkOf s n (.mma g d (.pop q) mb c fa fb kb z) = operand q.val) ∧
      (R.lsize ≠ 0 → 2 ^ R.lsize.toNat < (bytes + 2 ^ R.esz.toNat - 1) / 2 ^ R.esz.toNat →
        checkOf s n (.mma g d (.pop q) mb c fa fb kb z) = operand ((bytes + 2 ^ R.esz.toNat - 1) / 2 ^ R.esz.toNat))))

/-- When its bundle has issued and its guard is true, ERET answers a next state in which the bundle ends with a
return. Once every result has landed, the closing point of that bundle answers one. Where no access is kept, and
nothing of the bundle's own was refused, the context stands at the return index outside any handler, with the saved
predicates and loop entries back in force whatever loop stack the handler left, and every x, v and panel register as
before; where the delivery was a copy-fault record, the entries of its queue are stopped no more. Where an access is
kept, its handle awaits no XLT, its ring has room and the page as it stands allows it (log 75), it is an access of the
tile again, with an entry of its ring claimed, and the context waits for its decision, the access staying kept. Once
that is decided the closing point leaves the handler in the same way: with nothing kept where the access was admitted;
where it was refused again, or a store of ERET's own bundle was refused and nothing stands in its place, with that
access kept and reservation exceeded delivered anew, whose return index is ERET's, whose info words are its handle and
offset, and whose saved predicates and loop entries are those that ERET restored. (06_scalar_and_control.md,
08_access_and_copy.md, 15_interrupted.md, R324, R155, R189, R319) -/
def Obligations.EretRestores : Prop :=
  ∀ (s : State) (t : TileId) (c : Fin 4),
  let A : Agent := .ctx t c
  let K : Ctx := s.ctx A
  let pred (w : Word) (b : Bank) : Prop :=
    (∀ j, 1 ≤ j → j < 8 → b.p.getLsbD j = w.getLsbD j) ∧ ∀ j < 8, b.s.getLsbD j = w.getLsbD (8 + j)
  let stays (v : State) : Prop := (v.ctx A).bank.x = K.bank.x ∧ (v.ctx A).bank.v = K.bank.v ∧ (v.ctx A).bank.a = K.bank.a ∧
    ∀ q, (v.tile t).queues[q] = if K.trap.queue = some q
      then (s.tile t).queues[q].map fun (e : CopyEntry) => { e with stopped := none } else (s.tile t).queues[q]
  let home (v : State) : Prop := (v.ctx A).pc = K.trap.ret.toNat ∧ (v.ctx A).trap.handling = false ∧ (v.ctx A).tail = none ∧
    (v.ctx A).trap.queue = none ∧ (v.ctx A).bank.loops = K.trap.loops ∧ pred K.trap.pred (v.ctx A).bank
  (∀ g : Guard, s.issue.agent = A → Performs (.eret g) s → K.tail = some s.openTail →
    ∃ u, exec (.eret g) s = .next u ∧ u = s.modCtx A (fun k => { k with tail := some { s.openTail with eret := .begun } }) ∧
      (K.flight = [] → K.trap.keep = none → ∃ v, exec (.closingPoint A) u = .next v ∧ home v ∧ stays v)) ∧
  (∀ (tl : Tail) (k : Kept), K.tail = some tl → tl.eret = .begun → tl.waits = [] → K.flight = [] → K.trap.keep = some k →
    (K.bank.handle k.h).pending = false → k.check K.bank = none →
    (∀ q, k.ring = some q → 1 ≤ (K.bank.ring q).room ∧ (s.tile t).loads < 64) →
    ∃ v a, exec (.closingPoint A) s = .next v ∧ (v.tile t).accs = (s.tile t).accs ++ [a] ∧
      a.kind = k.kind ∧ a.hdl = k.h ∧ a.off = k.off ∧ a.data = k.data ∧ a.ctx = c ∧ a.id = (s.tile t).serial ∧
      (v.ctx A).tail = some { tl with eret := .sent a.id, waits := [.alloc a.id] } ∧ (v.ctx A).trap = K.trap ∧
      ∀ q, k.ring = some q → ((v.ctx A).bank.ring q).res = (K.bank.ring q).res + 1) ∧
  (∀ tl : Tail, K.tail = some tl → tl.eret ≠ .none → (tl.eret = .begun → K.trap.keep = none) → K.flight = [] →
    (∀ w ∈ tl.waits, s.waitStands t c w = false) →
    let left : Option Kept := if tl.eret = .again ∧ K.trap.keep.isSome = true then K.trap.keep else tl.refused
    ∃ v, exec (.closingPoint A) s = .next v ∧ stays v ∧
      (left = none → home v ∧ (v.ctx A).trap.keep = none) ∧
      ∀ k, left = some k → K.trap.vec.getLsbD 63 = true →
        (v.ctx A).pc = K.trap.vec.toNat % 2 ^ 14 ∧ (v.ctx A).trap.handling = true ∧ (v.ctx A).trap.cause = 0x308 ∧
        (v.ctx A).trap.ret = BitVec.ofNat 64 (K.trap.ret.toNat % 2 ^ 14) ∧ (v.ctx A).trap.info0 = BitVec.ofNat 64 k.h.val ∧
        (v.ctx A).trap.info1 = BitVec.ofNat 64 k.off ∧ (v.ctx A).trap.keep = some k ∧ (v.ctx A).trap.loops = K.trap.loops ∧
        (v.ctx A).bank.loops = [] ∧ (v.ctx A).tail = none ∧ pred (v.ctx A).trap.pred (v.ctx A).bank ∧ pred K.trap.pred (v.ctx A).bank)

/-- When its bundle has issued and its guard is true, CONDW answers a next state with its word, operation and value
behind the condition-word writes on their way; TOKEN one with the deciding and successor node behind the tokens on
their way, where the deciding node is in the graph; and SYSC, RSV, UNRSV, FLKADD and FLKDEL one with a request of a
new number, with x1 to x6 for SYSC, behind those that stand, its number among the waits of the bundle. When its bundle
has issued and its guard is true and the deciding node is not below the graph's node count, TOKEN answers a next state
in which no context has stopped, no token is on its way, and system fault 0x25, its first information word the node
(its second is free, log 5), is owed until the results in flight when the bundle has ended have landed (R129; log 99).
(06_scalar_and_control.md, 08_access_and_copy.md, 12_attention_by_pages.md, 15_interrupted.md, R129, R151, R152, R154,
R192, R273, R325) -/
def Obligations.MessagesAndRequests : Prop :=
  (∀ (s : State) (g : Guard) (t : TileId) (c : Fin 4) (a b : Src) (w : BitVec 6) (o : CondwOp) (num : BitVec 16) (d : Fin 32)
      (dom : BitVec 3) (flk : BitVec 8) (st : BitVec 2),
    let T := s.tile t
    let stands : CallKind → List Word → Fin 32 → State := fun k l r =>
      let u := s.modTail fun tl => { tl with waits := tl.waits ++ [.reply s.serial] }
      { u with
        calls := s.calls ++ [{ id := s.serial, pad := T.pad.getD 0, rank := T.mem.bnd.rank t, c := c, kind := k, args := l, d := r, forwarded := none }],
        serial := s.serial + 1 }
    s.issue.agent = .ctx t c →
    (Performs (.condw g a w o) s →
      exec (.condw g a w o) s = .next (s.modNet t fun n =>
        { n with condw := n.condw ++ [{ rank := s.issue.mem.bnd.rank t, node := s.issue.ctx.node.toNat, op := o, word := ⟨w.toNat, w.isLt⟩, v := (s.X 1 a).setWidth 32 }] })) ∧
    (Performs (.token g a b) s → (s.X 1 a).toNat < T.pr.nodes.length →
      exec (.token g a b) s = .next (s.modNet t fun n => { n with tokens := n.tokens ++ [((s.X 1 a).toNat, (s.X 2 b).toNat)] })) ∧
    (Performs (.sysc g num) s →
      exec (.sysc g num) s = .next (stands (.sysc num)
        [s.bank.xr 1, s.bank.xr 2, s.bank.xr 3, s.bank.xr 4, s.bank.xr 5, s.bank.xr 6] 1)) ∧
    (Performs (.rsv g d a dom) s →
      exec (.rsv g d a dom) s = .next (stands (.rsv (s.X 1 a).toNat ⟨dom.toNat, dom.isLt⟩) [] d)) ∧
    (Performs (.unrsv g d a dom) s →
      exec (.unrsv g d a dom) s = .next (stands (.unrsv (s.X 1 a).toNat ⟨dom.toNat, dom.isLt⟩) [] d)) ∧
    (Performs (.flkadd g a flk st) s →
      exec (.flkadd g a flk st) s = .next (stands (.flkAdd ((s.X 1 a).toNat + flk.toNat) st) [] 0)) ∧
    (Performs (.flkdel g a flk) s →
      exec (.flkdel g a flk) s = .next (stands (.flkDel ((s.X 1 a).toNat + flk.toNat)) [] 0))) ∧
(∀ (s : State) (g : Guard) (t : TileId) (c : Fin 4) (a b : Src),
    s.issue.agent = .ctx t c → Performs (.token g a b) s → (s.tile t).pr.nodes.length ≤ (s.X 1 a).toNat →
    ∃ u i1, exec (.token g a b) s = .next u ∧ u.pads = s.pads ∧ u.faults = s.faults ∧
      ∀ B, u.ctx B =
        if B = .ctx t c then let k := s.ctx B; { k with owed := k.owed ++ [(none, k.pc, s.X 1 a, i1)] } else s.ctx B)

/-- When its bundle has issued and its guard is true, each CSR instruction answers a next state in which xd is to
receive, after 1 cycle, the register as it stood before the bundle. CSRRD changes nothing more; CSRWR, CSRSET and
CSRCLR also write the register, and that alone: ctx.pred takes s0 to s7 from bits 15 to 8 and p1 to p7 from bits 7 to
1, p0 staying 1 (bit 0 of an image is p0, which reads 1: log 16, deduced); ctx.trap.vec its bits 63 and 13 to 0;
ctx.trap.ret bits 13 to 0 and ctx.trap.pred bits 15 to 1, bit 0 reading 1, in a handler only; ctx.trap.stat loses ovf
where bit 62 is set; ctx.trap.keep its access where bit 63 is set, in a handler only; CSRSET and CSRCLR form the new
value and write it, so that on a write-one-to-clear field a 1 in that value clears (log 25, deduced); fp.sst takes
bits 4 to 0, fp.vst bits 5 to 0, fp.mst bits 5, 4 and 2 to 0; and a write to any other register, all read-only,
changes nothing. A context reads in fp.sst, fp.vst, fp.mst and fp.win its status, in fp.any the OR of the three, in
ctx.trap.* what delivery saved and whether an access is kept, in ctx.pred the predicates, in ctx.id, ctx.pc, ctx.cycle
and ctx.issued its number, its bundle's index and the counts, and in cond.wordN the tile's replica. (05_issued.md,
06_scalar_and_control.md, 09_numbers.md, 15_interrupted.md, R5, R156, R127, R224, R317, R318) -/
def Obligations.CsrReadsAndWrites : Prop :=
  (∀ (s : State) (g : Guard) (d : Fin 32) (a : Src) (k : BitVec 12),
    let old := s.csr k.toNat
    let put : Word → Ctx → Ctx := fun w c =>
      if k = 0x008 then { c with bank := { c.bank with p := w.setWidth 8 ||| 1, s := (w >>> 8).setWidth 8 } }
      else if k = 0x100 then { c with trap := { c.trap with vec := w &&& 0x8000000000003FFF } }
      else if k = 0x102 ∧ c.trap.handling = true then { c with trap := { c.trap with ret := w &&& 0x3FFF } }
      else if k = 0x106 ∧ c.trap.handling = true then { c with trap := { c.trap with pred := (w &&& 0xFFFE) ||| 1 } }
      else if k = 0x107 ∧ w.getLsbD 62 = true then { c with trap := { c.trap with ovf := false } }
      else if k = 0x108 ∧ c.trap.handling = true ∧ w.getLsbD 63 = true then { c with trap := { c.trap with keep := none } }
      else if k = 0x200 then { c with fp := { c.fp with sst := w.setWidth 6 &&& 0x1F } }
      else if k = 0x201 then { c with fp := { c.fp with vst := w.setWidth 6 } }
      else if k = 0x202 then { c with fp := { c.fp with mst := w.setWidth 6 &&& 0x37 } }
      else c
    let wrote : Word → Host.Outcome State Fault Refusal := fun w =>
      .next ((s.result (.x d old) 0 .scalar 1).modCtx s.issue.agent (put w))
    (Performs (.csrrd g d k) s → exec (.csrrd g d k) s = .next (s.result (.x d old) 0 .scalar 1)) ∧
    (Performs (.csrwr g d a k) s → exec (.csrwr g d a k) s = wrote (s.X 1 a)) ∧
    (Performs (.csrset g d a k) s → exec (.csrset g d a k) s = wrote (old ||| s.X 1 a)) ∧
    (Performs (.csrclr g d a k) s → exec (.csrclr g d a k) s = wrote (old &&& ~~~(s.X 1 a)))) ∧
(∀ (s : State) (t : TileId) (c : Fin 4),
    let K : Ctx := s.issue.ctx
    s.issue.agent = .ctx t c →
    (s.csr 0x200).toNat = K.fp.sst.toNat ∧ (s.csr 0x201).toNat = K.fp.vst.toNat ∧ (s.csr 0x202).toNat = K.fp.mst.toNat ∧
    (∀ j < 64, (s.csr 0x203).getLsbD j = ((s.csr 0x200).getLsbD j || (s.csr 0x201).getLsbD j || (s.csr 0x202).getLsbD j)) ∧
    (s.csr 0x204).toNat = K.fp.win.toNat ∧
    s.csr 0x100 = K.trap.vec ∧ s.csr 0x101 = K.trap.cause ∧ s.csr 0x102 = K.trap.ret ∧ s.csr 0x103 = K.trap.src ∧
    s.csr 0x104 = K.trap.info0 ∧ s.csr 0x105 = K.trap.info1 ∧ s.csr 0x106 = K.trap.pred ∧
    (s.csr 0x107).getLsbD 63 = K.trap.handling ∧ (s.csr 0x107).getLsbD 62 = K.trap.ovf ∧
    (K.records.length < 32 → (s.csr 0x107).toNat % 2 ^ 62 = K.records.length) ∧
    (s.csr 0x108).getLsbD 63 = K.trap.keep.isSome ∧ (s.csr 0x108).toNat % 2 ^ 63 = 0 ∧
    (s.csr 0x008).getLsbD 0 = true ∧ (∀ j, 1 ≤ j → j < 8 → (s.csr 0x008).getLsbD j = K.bank.p.getLsbD j) ∧
    (∀ j < 8, (s.csr 0x008).getLsbD (8 + j) = K.bank.s.getLsbD j) ∧ (∀ j, 16 ≤ j → (s.csr 0x008).getLsbD j = false) ∧
    (s.csr 0x000).toNat = c.val ∧ s.csr 0x001 = BitVec.ofNat 64 s.issue.hdr ∧ s.csr 0x002 = K.arg ∧ (s.csr 0x003).toNat = K.node.toNat ∧
    s.csr 0x004 = (if (s.tile t).lead = some c then 1 else 0) ∧
    s.csr 0x030 = BitVec.ofNat 64 (s.tile t).cycle ∧ s.csr 0x031 = BitVec.ofNat 64 K.issued ∧
    (s.csr 0x023).toNat = (s.tile t).stage.toNat ∧ (s.csr 0x028).toNat = (s.tile t).scene.toNat ∧
    ∀ w : Fin 64, (s.csr (0x40 + w.val)).toNat = ((s.tile t).pr.cond[w]).toNat)

/-- For a result in flight that waits for no access, its landing answers a next state in which the result is gone from
the flight, exactly the register it names is written, and every other register, of its own kind and of every other
kind, is as before: a read of x0 and of p0 gives 0 and true still. Its flags are joined into the status register of
its unit and no other, and no other context, no scratchpad, bank or instruction store and no main or drover memory
changes. (04_fetched.md, 06_scalar_and_control.md, 09_numbers.md, R93, R128, R129, R141, R224, R225) -/
def Obligations.ResultsLandWhole : Prop :=
  ∀ (s : State) (A : Agent) (k : Nat) (r : InFlight),
  let B : Bank := (s.ctx A).bank
  (s.ctx A).flight[k]? = some r → r.access = none →
  ∃ u, exec (.resultLands A k) s = .next u ∧
    (u.ctx A).flight = (s.ctx A).flight.eraseIdx k ∧
    (∀ m, (u.ctx A).bank.xr m = match r.write with | .x n v => if m = n ∧ n ≠ 0 then v else B.xr m | _ => B.xr m) ∧
    (∀ m, (u.ctx A).bank.pred m = match r.write with | .p n b => if m = n ∧ n ≠ 0 then b else B.pred m | _ => B.pred m) ∧
    (∀ m : Fin 32, (u.ctx A).bank.v[m] = match r.write with | .v n v => if m = n then v else B.v[m] | _ => B.v[m]) ∧
    (u.ctx A).bank = { B with x := (u.ctx A).bank.x, p := (u.ctx A).bank.p, s := (u.ctx A).bank.s, v := (u.ctx A).bank.v } ∧
    (u.ctx A).fp = { (s.ctx A).fp with
      sst := if r.unit = .scalar then (s.ctx A).fp.sst ||| (r.flags &&& 0x1F) else (s.ctx A).fp.sst
      vst := if r.unit = .vector then (s.ctx A).fp.vst ||| r.flags else (s.ctx A).fp.vst
      mst := if r.unit = .matrix then (s.ctx A).fp.mst ||| (r.flags &&& 0x37) else (s.ctx A).fp.mst } ∧
    (u.ctx A).trap = (s.ctx A).trap ∧ (u.ctx A).pc = (s.ctx A).pc ∧ (∀ C, C ≠ A → u.ctx C = s.ctx C) ∧ u.mem = s.mem ∧
    (∀ t, (u.tile t).mem = (s.tile t).mem) ∧ ∀ n, (u.drover n).mem = (s.drover n).mem

/-- When a tile's running context is ready with no bundle, trap or record before it, no context of the tile is blocked
or has a fault to report, no issue delay or curtain stands, the syllables at its program counter decode to a bundle,
and, the cycle counted and the due results landed, the bundle has no wait and passes its checks, a fetch answers the
next state in which that bundle has issued: its rings popped together, its issue counted, and the issue delay started,
the flits that the scene's cycle brings (R198, R356) to come next; but where it makes a store or atomic in an unbacked
page that its home slice has not answered, the context asks for it and is blocked with nothing popped or issued (R189;
that it asks before the bundle issues is log 76). Where a syllable, the first in slot order, fails a check that names
a trap, no result is in flight, the vector is valid and no handler runs, no syllable performs: registers, memory,
engines and accesses are as before, the context stands at the vector in a handler, and cause holds the code and the
syllable's slot, info0 and info1 the words of the check, and ret the bundle. In the same way where no bundle is
fetched: for a program counter above 16,383 or a syllable there that is no header the cause is 0x02, the refused index
the return index (its low 14 bits, log 23) and the from index the source; else it is 0x01, with slot 0xFF for a
header, or with the slot of the syllable that fails and its image in info0. A bundle whose syllables all decode, but
two of which name one register as destination, fails so at the first syllable that names one an earlier slot has
named. (04_fetched.md, 05_issued.md, 08_access_and_copy.md, 15_interrupted.md, R91, R97, R98, R116, R189, R321, R319,
R320) -/
def Obligations.FetchIssuesTheDecodedBundle : Prop :=
  let clear : State → TileId → Fin 4 → Prop := fun s t c =>
    let T := s.tile t
    T.run = some c ∧ T.gap = 0 ∧ T.stopReq = false ∧
      (∀ k, (T.ctx k).sel ≠ .blocked ∧ (T.ctx k).fault = none ∧ (T.ctx k).owed = []) ∧ (T.ctx c).sel = .ready ∧
      (T.ctx c).tail = none ∧ (T.ctx c).pending = none ∧ (T.ctx c).records = []
  (∀ (s : State) (t : TileId) (c : Fin 4) (b : Bundle),
    let T := s.tile t
    let A : Agent := .ctx t c
    let s1 := State.modTile ((s.modTile t fun T => { T with sceneCycle := T.sceneCycle + 1 }).inject t) t fun T =>
      { T with cycle := T.cycle + 1, ctxs := T.ctxs.map (·.landDue (T.cycle + 1)) }
    let o := s1.openIssue A b.hdr b.n b.syls
    let at_ : Slot → State := fun sl => { o.1 with issue := { o.1.issue with slot := sl.num } }
    clear s t c → fetch false (storeAt T.mem.store) 16383 (T.ctx c).pc = .ok b → o.1.bundleWaits o.2 = [] →
    (o.1.bundleCheck b.syls = none → (∀ k, o.1.allocation ≠ some (k, none)) →
      exec (.bundleFetch (.tile t)) s = .next ((o.1.commit o.2).modTile t fun T => { T with gap := b.delay })) ∧
    (o.1.bundleCheck b.syls = none → ∀ k, o.1.allocation = some (k, none) →
      ∃ u a, exec (.bundleFetch (.tile t)) s = .next u ∧ u.issue.cleared = false ∧
        u.ctx A = { s1.ctx A with sel := .blocked, ask := some a } ∧ a.kept = k ∧ a.hdr = b.hdr ∧ a.answer = none ∧ u.mem = s.mem) ∧
    (∀ (pre post : List (Slot × Instr)) (sl : Slot) (i : Instr) (code i0 i1 : Nat), b.syls = pre ++ (sl, i) :: post →
      (∀ p ∈ pre, (at_ p.1).guardTrue p.2 = true → checkOf (at_ p.1) p.1.num p.2 = none) →
      (at_ sl).guardTrue i = true → checkOf (at_ sl) sl.num i = some (.trap code (some i0) i1) →
      (s1.ctx A).flight = [] → (s1.ctx A).trap.handling = false → (s1.ctx A).trap.vec.getLsbD 63 = true →
      ∃ u, exec (.bundleFetch (.tile t)) s = .next u ∧ u.issue.cleared = false ∧
        (u.ctx A).pc = (s1.ctx A).trap.vec.toNat % 2 ^ 14 ∧ (u.ctx A).trap.handling = true ∧
        (u.ctx A).trap.cause = BitVec.ofNat 64 (sl.num * 256 + code % 256) ∧ (u.ctx A).trap.ret = BitVec.ofNat 64 (b.hdr % 2 ^ 14) ∧
        (u.ctx A).trap.info0 = BitVec.ofNat 64 i0 ∧ (u.ctx A).trap.info1 = BitVec.ofNat 64 i1 ∧
        (u.ctx A).bank = { (s1.ctx A).bank with loops := [] } ∧ (u.ctx A).fp = (s1.ctx A).fp ∧ u.mem = s.mem ∧
        (u.tile t).mem = T.mem ∧ (u.tile t).accs = T.accs ∧ (u.tile t).queues = T.queues ∧ (u.tile t).mq = T.mq ∧
        (u.tile t).e5 = T.e5 ∧ u.calls = s.calls)) ∧
  (∀ (s : State) (t : TileId) (c : Fin 4) (e : FetchError),
    let T := s.tile t
    let k := T.ctx c
    let A : Agent := .ctx t c
    clear s t c → k.flight = [] → k.trap.handling = false → k.trap.vec.getLsbD 63 = true →
    fetch false (storeAt T.mem.store) 16383 k.pc = .error e →
    ∃ u, exec (.bundleFetch (.tile t)) s = .next u ∧ u.issue.cleared = false ∧
      (u.ctx A).pc = k.trap.vec.toNat % 2 ^ 14 ∧ (u.ctx A).trap.handling = true ∧
      (u.ctx A).trap.ret = BitVec.ofNat 64 (k.pc % 2 ^ 14) ∧ (u.ctx A).trap.info1 = 0 ∧ (u.ctx A).bank.x = k.bank.x ∧
      (match e with
        | .target => (u.ctx A).trap.cause = 0xFF02 ∧ (u.ctx A).trap.info0 = 0 ∧ (u.ctx A).trap.src = BitVec.ofNat 64 (k.src % 2 ^ 14)
        | .header => (u.ctx A).trap.cause = 0xFF01 ∧ (u.ctx A).trap.info0 = 0
        | .syllable sl w => (u.ctx A).trap.cause = BitVec.ofNat 64 (sl.num * 256 + 0x01) ∧ (u.ctx A).trap.info0 = BitVec.ofNat 64 w)) ∧
  (∀ (st : Nat → Nat) (pc : Nat), 16383 < pc ∨ fld (st pc) 56 8 ≠ 0xB7 → fetch false st 16383 pc = .error .target) ∧
  (∀ (st : Nat → Nat) (pc : Nat) (pre post : List (Slot × Instr)) (sl : Slot) (i : Instr),
    let slots := maskSlots (fld (st pc) 48 8)
    fld (st pc) 56 8 = 0xB7 → fld (st pc) 0 44 = 0 → fld (st pc) 48 8 ≠ 0 → pc + slots.length ≤ 16383 →
    decodeSlots false slots ((List.range 8).map fun k => st (pc + 1 + k)) = .ok (pre ++ (sl, i) :: post) →
    (∀ l p r, pre = l ++ p :: r → ∀ d ∈ p.2.dests, ∀ q ∈ l, d ∉ q.2.dests) → (∃ d ∈ i.dests, ∃ p ∈ pre, d ∈ p.2.dests) →
    fetch false st 16383 pc = .error (.syllable sl (st (pc + 1 + pre.length))))

/-- When the tile in focus runs a ready context with nothing before it and the syllables at its program counter decode
to a bundle of one syllable whose waits and checks are passed and which waits for no home slice, the step is exec of
that syllable, in its slot, at the state in which the bundle has issued (the flits that the scene's cycle brings to
come next), then the end of the bundle. When power is on, no event stands in the agenda, and the fetch of the tile or
drover thread in focus answers a state in which a bundle of one syllable has issued, the step is exec of that syllable
in its slot at that state, then the closing point of the agent that issued, then nothing in issue; a bundle of several
syllables performs them in slot order in the same way, and a fetch that issues nothing is the whole step. When power
is on and an event other than a bundle fetch is first in the agenda, the step is exec of it with the event taken out;
once power is removed every step faults until the event that powers the device on. That events stand in an agenda is
the model's own choice (log 2). (04_fetched.md, 06_scalar_and_control.md, 22_the_device.md, R91, R97, R130, R189,
R198, R356, R359, R361) -/
def Obligations.StepRunsTheDecodedInstruction : Prop :=
  (∀ (s : State) (t : TileId) (c : Fin 4) (b : Bundle) (sl : Slot) (i : Instr),
    let T := s.tile t
    let s1 := State.modTile ((s.modTile t fun T => { T with sceneCycle := T.sceneCycle + 1 }).inject t) t fun T =>
      { T with cycle := T.cycle + 1, ctxs := T.ctxs.map (·.landDue (T.cycle + 1)) }
    let o := s1.openIssue (.ctx t c) b.hdr b.n b.syls
    let u := (o.1.commit o.2).modTile t fun T => { T with gap := b.delay }
    s.dev.off = false → s.agenda = [] → s.focus = .tile t → b.syls = [(sl, i)] →
    T.run = some c → T.gap = 0 → T.stopReq = false → (∀ k, (T.ctx k).sel ≠ .blocked ∧ (T.ctx k).fault = none ∧ (T.ctx k).owed = []) → (T.ctx c).sel = .ready →
    (T.ctx c).tail = none → (T.ctx c).pending = none → (T.ctx c).records = [] →
    fetch false (storeAt T.mem.store) 16383 (T.ctx c).pc = .ok b → o.1.bundleWaits o.2 = [] → o.1.bundleCheck b.syls = none →
    (∀ k, o.1.allocation ≠ some (k, none)) →
    u.issue.cleared = true ∧ u.issue.todo = [(sl, i)] ∧
    step s =
      match exec i { u with issue := { u.issue with slot := sl.num } } with
      | .next v =>
        (match exec (.closingPoint v.issue.agent) v with
          | .next w => .next { w with issue := { w.issue with todo := [], cleared := false } }
          | .fault f => .fault f
          | .refused x => .refused x)
      | .fault f => .fault f
      | .refused x => .refused x) ∧
(∀ (s u : State),
    s.dev.off = false → s.agenda = [] → exec (.bundleFetch s.focus) s = .next u →
    (u.issue.cleared = false → step s = .next u) ∧
    (∀ sl i, u.issue.cleared = true → u.issue.todo = [(sl, i)] →
      step s =
        match exec i { u with issue := { u.issue with slot := sl.num } } with
        | .next v =>
          (match exec (.closingPoint v.issue.agent) v with
            | .next w => .next { w with issue := { w.issue with todo := [], cleared := false } }
            | .fault f => .fault f
            | .refused x => .refused x)
        | .fault f => .fault f
        | .refused x => .refused x) ∧
    (u.issue.cleared = true → step s =
        match performAll u.issue.todo u with
        | .next v =>
          (match exec (.closingPoint v.issue.agent) v with
            | .next w => .next { w with issue := { w.issue with todo := [], cleared := false } }
            | .fault f => .fault f
            | .refused x => .refused x)
        | .fault f => .fault f
        | .refused x => .refused x)) ∧
(∀ (s : State) (i : Instr) (rest : List Instr),
    (s.dev.off = true → (∀ r l, s.agenda ≠ .powerOn r :: l) → step s = .fault .powerRemoved) ∧
    (s.agenda = i :: rest → s.dev.off = false ∨ (∃ r, i = .powerOn r) → (∀ u, i ≠ .bundleFetch u) →
      step s = exec i { s with agenda := rest }))

/-- After 8 cycles of a panel stall that its next bundle still meets, the wait answers a next state in which the
running context is blocked, or under a pending curtain stopped, and has given up the tile, and else one in which
nothing has changed; a token-target fault that a context owes is recorded in the cycle in which the last of the
results it waits for lands (log 99); the delivery of a record that an idle-free context without tail, handler or
pending trap can take answers one in which the record is gone from the queue and, with a valid vector and nothing in
flight, the handler entered with it; the drover's taking of the oldest fault of a paddock, of however many there are,
records a token-target fault and at any other starts the kill of that paddock alone with the fault's code, its record
removed from those under way. A bundle waits, and a cycle of it issues nothing and changes no register, memory or
queue, while a register or guard that a syllable names is in flight, a ring that it pops has no entry to pop, a handle
that it names is in a walk, a counter is below the target of its CNTWAIT, a named queue holds an entry of before its
CPYWAIT, a scale entry that it needs has not landed, a panel that it reads is busy, or a queue that it enters is full
(the replay queue of a held domain too): from an engine wait the context is blocked and the tile goes to the next
ready one, from a stall it keeps the tile. A context past 12,000 cycles under a curtain stops with fault 0x28,
recorded once no result of it is in flight. (R97, R116, R117, R128, R166, R204, R206, R252, R256, R322, R325, R330) -/
def Obligations.StepsOfTheContext : Prop :=
  ∀ (s : State) (t : TileId) (c : Fin 4) (q : TrapReq) (rest : List TrapReq) (p : Nat) (k : Paddock) (f : SysFault)
    (pre fs : List SysFault),
  let A : Agent := .ctx t c
  (∀ r, (s.tile t).run = some c → 8 ≤ (s.ctx A).stall → (s.ctx A).tail = none → .panel ∈ s.waitsAt t c → r = [c + 1, c + 2, c + 3].find? (fun k => ((s.tile t).ctx k).sel = .ready) →
    ∃ u, exec (.panelScoreboardEngineWait t) s = .next u ∧ (u.ctx A).sel = (if (s.tile t).stopReq then .stopped else .blocked) ∧ (u.tile t).run = r) ∧
  ((s.tile t).run = some c → (s.ctx A).stall < 8 ∨ .panel ∉ s.waitsAt t c → exec (.panelScoreboardEngineWait t) s = .next s) ∧
  (∀ (l : Option (List InFlight)) (pc : Nat) (i0 i1 : Word),
    let T := s.tile t
    let left : List InFlight := ((T.ctx c).landDue (T.cycle + 1)).flight
    let awaited : List InFlight := l.getD left
    0 < T.gap → T.stopReq = false → (∀ k, (T.ctx k).sel ≠ .blocked ∧ (T.ctx k).fault = none ∧ (k ≠ c → (T.ctx k).owed = [])) →
    (T.ctx c).owed = [(l, pc, i0, i1)] →
    ∃ u, exec (.bundleFetch (.tile t)) s = .next u ∧ (u.ctx A).flight = left ∧
      ((∃ r ∈ awaited, r ∈ left) → u.faults = s.faults ∧ (u.ctx A).owed = [(some awaited, pc, i0, i1)]) ∧
      ((∀ r ∈ awaited, r ∉ left) → (u.ctx A).owed = [] ∧ ∃ f, u.faults = s.faults ++ [f] ∧ f.code = 0x25 ∧ f.ctx = some c ∧ f.pc = pc ∧
        f.info0 = i0 ∧ f.info1 = i1)) ∧
  ((s.ctx A).records = q :: rest → (s.ctx A).tail = none → (s.ctx A).pending = none → (s.ctx A).flight = [] →
    (s.ctx A).sel = .ready → (s.ctx A).trap.handling = false → (s.ctx A).trap.vec.getLsbD 63 = true →
    ∃ u, exec (.recordDelivery t c) s = .next u ∧ (u.ctx A).records = rest ∧ (u.ctx A).trap.handling = true ∧
      (u.ctx A).pc = (s.ctx A).trap.vec.toNat % 2 ^ 14 ∧ (u.ctx A).trap.info0 = q.info0 ∧
      (u.ctx A).trap.ret = BitVec.ofNat 64 ((s.ctx A).pc % 2 ^ 14)) ∧
  (s.faults = pre ++ f :: fs → f.pad = some p → (∀ x ∈ pre, x.pad ≠ some p) → (s.pads.map (·.pid)).Nodup → k ∈ s.pads → k.pid = p →
    k.killed = none →
    ∃ u k', exec (.systemFault p) s = .next u ∧ u.faults = pre ++ fs ∧ u.pads = s.pads.map (fun x => if x.pid = p then k' else x) ∧
      (f.code = 0x25 → k' = { k with recorded := k.recorded ++ [f] }) ∧
      (f.code ≠ 0x25 → k'.phase = .killing ∧ ∃ i, k'.killed = some i ∧ i.status = f.code ∧ i.fpc = f.pc ∧ i.info0 = f.info0 ∧ i.info1 = f.info1)) ∧
  (∀ (b : Bundle) (sl : Slot) (i : Instr),
    let T := s.tile t
    let s1 := State.modTile ((s.modTile t fun T => { T with sceneCycle := T.sceneCycle + 1 }).inject t) t fun T =>
      { T with cycle := T.cycle + 1, ctxs := T.ctxs.map (·.landDue (T.cycle + 1)) }
    let K := s1.ctx A
    let o := (s1.openIssue A b.hdr b.n b.syls).1
    let at_ : State := { o with issue := { o.issue with slot := sl.num } }
    let names : RegWrite → Prop := fun w => match w with
      | .x n _ => n ≠ 0 ∧ (.xd n ∈ i.operands ∨ ∃ f, .xs f (.reg n) ∈ i.operands)
      | .v n _ => .vd n ∈ i.operands ∨ ∃ f, .vs f (.reg n) ∈ i.operands
      | .p n _ => n ≠ 0 ∧ (.pd n ∈ i.operands ∨ .ps n ∈ i.operands)
      | .none => False
    let avail (k : Bool) : List ScaleEntry := (K.bank.scale k).drop (T.reserved c)
    let panelBusy : Prop := ∃ g d a n, i = .mrow g d a n ∧ ∃ e ∈ T.mq, e.ctx = c ∧ a ∈ e.work.panels
    let guardInFlight : Prop := ∃ g, i.guard? = some g ∧ g.idx ≠ 0 ∧ ∃ r ∈ K.flight, ∃ v, r.write = .p g.idx v
    let stalls : Prop :=
      (∃ r ∈ K.flight, names r.write) ∨ panelBusy ∨
      (∃ g d a k, i = .cpy g d a k ∧ 128 ≤ T.copies) ∨
      (∃ g r a h y, i = .mldv g r a h y ∧ (64 ≤ T.loads ∨ (K.bank.ring r).lsize ≠ 0 ∧ (K.bank.ring r).room < (K.bank.ring r).need 256)) ∨
      (∃ g d, i = .mzero g d ∧ 8 ≤ T.mq.length) ∨ (∃ g, i = .scene g ∧ 16 ≤ T.e5.length) ∨
      (∃ g d a n, i = .sqpush g d a n ∧ 16 < (K.bank.scale (d == 1)).length + n.toNat + 1) ∨
      (∃ g a d h y, i = .mstv g a d h y ∧ (K.bank.handle h).valid = true ∧ (K.bank.handle h).first = false ∧
        (s.mem.doms[(K.bank.handle h).dom]).hold = true ∧ 16 ≤ s.parkedAt t)
    let engine : Prop := K.flight = [] ∧
      ((∃ g a k, i = .cntwait g a k ∧ T.mem.counter k.toNat < at_.X 1 a ∧ ∀ x ∈ counterAddrs k.toNat, x / 8 ∉ T.mem.poison) ∨
      (∃ h, (K.bank.handle h).pending = true ∧
        ((∃ g, i = .hrel g h) ∨ (∃ g a, i = .xlt g h a) ∨ (∃ g r a y, i = .mldv g r a h y) ∨ (∃ g a d y, i = .mstv g a d h y) ∨
          ∃ g a d, i = .disc g a d h)) ∨
      (∃ g m, i = .cpywait g m ∧ K.marks = none ∧ ∃ k : Fin 4, m.getLsbD k.val = true ∧ ∃ e ∈ T.queues[k], e.serial < T.serial) ∨
      (panelBusy ∧ 8 ≤ K.stall) ∨
      (∃ g d a x w fa fb k z, i = .mma g d a x w fa fb k z ∧ fa.scaled = true ∧
        (∀ j, k.toNat + 1 ≤ (avail j).length) ∧ ∃ j, ∃ e ∈ (avail j).take (k.toNat + 1), e.isLanded = false) ∨
      (b.syls = [(sl, i)] ∧ (∀ f r n, .ms f (.pop r) n ∉ i.operands) ∧
        ∃ f r, .xs f (.pop r) ∈ i.operands ∧ (K.bank.ring r).lsize ≠ 0 ∧ (K.bank.ring r).prod = (K.bank.ring r).rd))
    T.run = some c → T.gap = 0 → T.stopReq = false → (∀ k, (T.ctx k).sel ≠ .blocked ∧ (T.ctx k).fault = none ∧ (T.ctx k).owed = []) →
    (T.ctx c).sel = .ready → (T.ctx c).tail = none → (T.ctx c).pending = none → (T.ctx c).records = [] →
    fetch false (storeAt T.mem.store) 16383 (T.ctx c).pc = .ok b → (sl, i) ∈ b.syls →
    guardInFlight ∨ at_.guardTrue i = true ∧ (stalls ∨ engine) →
    ∃ u, exec (.bundleFetch (.tile t)) s = .next u ∧ u.issue.cleared = false ∧ (u.ctx A).pc = (T.ctx c).pc ∧ (u.ctx A).bank = K.bank ∧
      (u.ctx A).flight = K.flight ∧ (u.ctx A).issued = K.issued ∧ (u.ctx A).tail = none ∧ (u.ctx A).pending = none ∧ u.mem = s.mem ∧
      u.calls = s.calls ∧ (u.tile t).mem = T.mem ∧ (u.tile t).accs = T.accs ∧ (u.tile t).queues = T.queues ∧ (u.tile t).mq = T.mq ∧
      (u.tile t).e5 = T.e5 ∧
      (at_.guardTrue i = true → engine → (u.ctx A).sel = .blocked ∧
        (u.tile t).run = [c + 1, c + 2, c + 3].find? fun k => (T.ctx k).sel = .ready) ∧
      (b.syls = [(sl, i)] → (∃ g ty d n m, i = .add g ty d (.reg n) (.reg m)) ∨ (∃ g d, i = .mzero g d) ∨ (panelBusy ∧ K.stall < 8) →
        (u.ctx A).sel = .ready ∧ (u.tile t).run = some c)) ∧
  ((s.tile t).run = some c → (s.tile t).stopReq = true → 12000 < (s.tile t).past →
    ∃ u, exec (.pointOverrun t) s = .next u ∧ (u.ctx A).sel = .stopped ∧ (u.ctx A).bank = (s.ctx A).bank ∧
      ((s.ctx A).flight = [] → ∃ f, u.faults = s.faults ++ [f] ∧ f.code = 0x28) ∧
      ((s.ctx A).flight ≠ [] → u.faults = s.faults ∧ (u.ctx A).flight = (s.ctx A).flight ∧ ∃ w, (u.ctx A).fault = some w ∧ w.1 = 0x28))

/-- A data error in a scratchpad or bank answers a next state in which the unit is marked in its tile, and a second
unit of the tile in error in one boot withholds the tile; one in a line of the cache or of memory one in which all 16
units of the line are marked, a cache error taking a way of its slice out of use, and, where the line is no unbacked
one, out of its set, what it holds of host memory leaving (log 113), with the 64th error the slice, which leaves every
domain that has it, whose registers read so, at once or once the domain has no request outstanding; a memory error
retiring the frame of the address and the frames that its row touches, a row that has failed before counting once and
the sixteenth error of a channel failing the channel; one in a page table one with a system fault of code 0x20 for its
paddock (its information words free, log 5); one in the drover's or the green room's data one in which the paddock is
being killed with status 0x13. Each is logged, with its kind and place. Which row a line lies in is a constant of the
device (log 29). (15_interrupted.md, 16_retired.md, R326, R343) -/
def Obligations.DataErrors : Prop :=
  ∀ (s : State) (t : TileId) (off slice pa p : Nat) (one : Bool) (k : Paddock),
  let marks : State → Nat → Prop := fun u unit => (u.tile t).mem.poison.contains unit = true ∧ u.mem = s.mem ∧ (∀ x, x ≠ t → u.tile x = s.tile x) ∧
    (Sparse.get 0 s.dev.tileErrs t.val ≠ 0 → Sparse.get 0 s.dev.tileErrs t.val ≠ unit + 1 → u.dev.held.getLsbD t.val = true)
  let line : Nat := s.mem.eff pa / 128
  let row : Nat := Config.rowOf (pa / 128)
  let ch : Nat := (Config.channelOf (pa / 128)).val
  let killed : State → Prop := fun u => (s.pads.map (·.pid)).Nodup → k ∈ s.pads → k.pid = p → k.killed = none →
    ∃ k' i, u.pads = s.pads.map (fun x => if x.pid = p then k' else x) ∧ k'.phase = .killing ∧ k'.killed = some i ∧ i.status = 0x13
  (∃ u, exec (.dataError (.scratch t off)) s = .next u ∧ marks u (off % 2 ^ 20 / 8) ∧ OutMsg.log 0 t.val ∈ u.out) ∧
  (∃ u, exec (.dataError (.bank t one off)) s = .next u ∧ marks u (bankUnit one (off % 2 ^ 17)) ∧ OutMsg.log 1 t.val ∈ u.out) ∧
  (∃ u, exec (.dataError (.slc slice pa)) s = .next u ∧ OutMsg.log 2 pa ∈ u.out ∧
    (Sparse.get 0 s.dev.ways (slice % 64) < 63 → u.tiles = s.tiles ∧ (∀ j < 16, line * 16 + j ∈ u.mem.bad) ∧
      (if s.mem.unbacked (s.mem.eff pa) = true then u.mem.bytes = s.mem.bytes ∧ u.mem.halves = s.mem.halves ∧ u.mem.lost = s.mem.lost
      else u.mem.halves = s.mem.halves.filter (fun h => h.half / 2 != line) ∧
        u.mem.lost = s.mem.lost ++ [(slice % 64, Config.cacheSet line)] ∧
        ∀ a, (∀ h ∈ s.mem.halves, h.half / 2 = line → h.st = .modified → a / 64 ≠ h.half) → Sparse.get 0 u.mem.bytes a = Sparse.get 0 s.mem.bytes a) ∧
      Sparse.get 0 u.dev.ways (slice % 64) = Sparse.get 0 s.dev.ways (slice % 64) + 1 ∧ u.dev.slices = s.dev.slices) ∧
    (Sparse.get 0 s.dev.ways (slice % 64) = 63 → u.dev.slices = s.dev.slices + 1 ∧
      ∀ d : Fin 8, (s.mem.doms[d]).set.getLsbD (slice % 64) = true → (s.mem.doms[d]).leave = 0 → (s.mem.doms[d]).busy = false →
        (s.mem.doms[d]).hold = false → if s.mem.hreqs.any (fun q => q.dom == d) = true ∨ s.requests d ≠ []
        then (u.mem.doms[d]).hold = true ∧ (u.mem.doms[d]).leave.getLsbD (slice % 64) = true
        else (u.mem.doms[d]).hold = false ∧ BitVec.ofNat 64 (u.readDev (0x1500 + d.val * 0x40)) = (u.mem.doms[d]).set ∧
          ∀ j < 64, (u.mem.doms[d]).set.getLsbD j = (decide (j ≠ slice % 64) && (s.mem.doms[d]).set.getLsbD j))) ∧
  (∃ u, exec (.dataError (.dram pa)) s = .next u ∧ u.tiles = s.tiles ∧ (∀ j < 16, pa / 128 * 16 + j ∈ u.mem.bad) ∧
    pa / 2 ^ 16 ∈ u.mem.retired ∧ (∀ f ∈ Config.rowFrames row, f ∈ u.mem.retired) ∧ (∀ f ∈ s.mem.retired, f ∈ u.mem.retired) ∧
    u.dev.rows = (if row ∈ s.dev.rows then s.dev.rows else row :: s.dev.rows) ∧
    (Sparse.get 0 s.dev.chanErrs ch = 15 → ch ∈ u.mem.failing) ∧ (Sparse.get 0 s.dev.chanErrs ch ≠ 15 → u.mem.failing = s.mem.failing) ∧
    OutMsg.log 3 pa ∈ u.out) ∧
  (∃ u f, exec (.dataError (.pageTable p)) s = .next u ∧ u.faults = s.faults ++ [f] ∧ f.code = 0x20 ∧ f.pad = some p ∧
    u.tiles = s.tiles ∧ u.mem = s.mem ∧ OutMsg.log 4 p ∈ u.out) ∧
  (∃ u, exec (.dataError (.drover p)) s = .next u ∧ killed u ∧ u.tiles = s.tiles ∧ u.mem = s.mem ∧ OutMsg.log 5 p ∈ u.out) ∧
  (∃ u, exec (.dataError (.greenRoom p)) s = .next u ∧ killed u ∧ u.tiles = s.tiles ∧ u.mem = s.mem ∧ OutMsg.log 6 p ∈ u.out)

/-- When its bundle has issued and its guard is true, each of VADD, VSUB, VMUL, VFMA, VFMS, VMULH, VMIN, VMAX, VCLAMP,
VABS, VNEG on integer lanes answers a next state with a vector in flight to vd after the opcode's latency whose every
lane is the exact integer result of the lanes at that place, read unsigned under u (VABS and VNEG always signed), cut
to the lane's width or clamped to its range under sat. (10_vector.md, R226, R228, R231, R232, R233, R234) -/
def Obligations.VectorIntegerArithmetic : Prop :=
  ∀ (s : State) (g : Guard) (t : Ty) (d : Fin 32) (a b c : Src) (rm : Rm) (sat u : Bool),
  let L : VReg → Nat → BitVec t.bits := fun v j => v.extractLsb' (j * t.bits) t.bits
  let lanes : Nat := 2048 / t.bits
  let A := L (s.V 1 a)
  let B := L (s.V 2 b)
  let C := L (s.V 3 c)
  let val : Bool → BitVec t.bits → Int := fun w x => if w then (x.toNat : Int) else x.toInt
  let cut : Bool → Int → BitVec t.bits := fun w r =>
    BitVec.ofInt t.bits
      (if sat then max (if w then 0 else -(2 ^ (t.bits - 1) : Nat)) (min (if w then (2 ^ t.bits : Nat) - 1 else (2 ^ (t.bits - 1) : Nat) - 1) r)
       else r)
  let out : Instr → Nat → (Nat → BitVec t.bits) → Prop := fun i lat f =>
    Performs i s → ∃ v fl, exec i s = .next (s.result (.v d v) fl .vector lat) ∧ ∀ j < lanes, L v j = f j
  t.isInt = true →
  out (.vadd g t d a b rm sat u) 2 (fun j => cut u (val u (A j) + val u (B j))) ∧
  out (.vsub g t d a b rm sat u) 2 (fun j => cut u (val u (A j) - val u (B j))) ∧
  out (.vmul g t d a b rm sat u) 4 (fun j => cut u (val u (A j) * val u (B j))) ∧
  out (.vfma g t d a b c rm sat u) 4 (fun j => cut u (val u (A j) * val u (B j) + val u (C j))) ∧
  out (.vfms g t d a b c rm sat u) 4 (fun j => cut u (val u (A j) * val u (B j) - val u (C j))) ∧
  out (.vmulh g t d a b u) 4 (fun j => BitVec.ofInt t.bits (val u (A j) * val u (B j) / (2 ^ t.bits : Nat))) ∧
  out (.vmin g t d a b u) 2 (fun j => if val u (A j) < val u (B j) then A j else B j) ∧
  out (.vmax g t d a b u) 2 (fun j => if val u (A j) < val u (B j) then B j else A j) ∧
  out (.vclamp g t d a b c u) 2 (fun j =>
    let x := if val u (A j) < val u (B j) then B j else A j
    if val u x < val u (C j) then x else C j) ∧
  out (.vabs g t d a sat) 2 (fun j => cut false (if (A j).toInt < 0 then -(A j).toInt else (A j).toInt)) ∧
  out (.vneg g t d a sat) 2 (fun j => cut false (-(A j).toInt))

/-- When its bundle has issued and its guard is true, on float lanes each lane of VADD, VSUB, VMUL, VFMA and VFMS is
the exact sum, difference, product or fused result of the lanes at that place rounded once by the mode, with the
zeros, infinities and NaNs of IEEE 754 and its flags, and the very code and flags that FADD, FSUB, FMUL, FFMA, and
FFMA with the third operand's sign inverted, put in flight for those operands; the flags in flight for fp.vst are
those of all lanes; VABS clears and VNEG inverts the sign bit only; VMIN and VMAX take the lower and the higher lane,
-0 below +0, the number where one is a NaN and the canonical NaN where both are, and VCLAMP the lower of its upper
bound and the higher of operand and lower bound, raising NV for a signaling operand and nothing else. VRCP and VRSQ of
a nonzero number (for VRSQ positive) are 1/x and 1/√x, VEXP2 of an integer n is 2^n and VLOG2 of 2^n is n, in full
mode rounded once by the mode and else cut toward zero to min(12, p) significant bits and into the format, an infinity
beyond it; their special operands give the results of R244's table; for every other operand VEXP2 and VLOG2 answer the
model's own expansion of the exact value to at least 140 bits, rounded or cut in that way. Each vector is in flight to
vd after the opcode's latency. (10_vector.md, R226, R231, R232, R233, R234, R243, R244) -/
def Obligations.VectorFloatLanes : Prop :=
  ∀ (s : State) (g : Guard) (t : Ty) (d : Fin 32) (a b c : Src) (rm : Rm) (u full : Bool),
  let F : FFmt := tyFmt t
  let L : VReg → Nat → Nat := fun v j => v.toNat / 2 ^ (j * t.bits) % 2 ^ t.bits
  let lanes : Nat := 2048 / t.bits
  let A := L (s.V 1 a)
  let B := L (s.V 2 b)
  let C := L (s.V 3 c)
  let arg : Nat → Val := fun x => fArg t (BitVec.ofNat 64 x)
  let gives : Instr → Nat → (Nat → Nat → Flags → Prop) → Prop := fun i lat p =>
    Performs i s → ∃ v fl, ∃ w : Nat → Flags, exec i s = .next (s.result (.v d v) fl .vector lat) ∧
      (∀ n, fl.getLsbD n = (List.range lanes).any fun j => (w j).getLsbD n) ∧ ∀ j < lanes, p j (L v j) (w j)
  let out : Instr → Nat → (Nat → Nat → Prop) → Prop := fun i lat p => gives i lat fun j r _ => p j r
  let scalar : (Guard → Fin 32 → Src → Src → Src → Instr) → Nat → Nat → Nat → Nat → Flags → Prop := fun i x y z r fl =>
    ∀ (q : State) (h : Guard) (e : Fin 32) (k l m : Src), Performs (i h e k l m) q →
      q.X 1 k = BitVec.ofNat 64 x → q.X 2 l = BitVec.ofNat 64 y → q.X 3 m = BitVec.ofNat 64 z →
      exec (i h e k l m) q = .next (q.result (.x e (BitVec.ofNat 64 r)) fl .scalar 4)
  let flip : Nat → Nat := fun x => (x + 2 ^ (t.bits - 1)) % 2 ^ t.bits
  let nan : Nat → Bool := fun x => (2 ^ F.e - 1) * 2 ^ F.m < x % 2 ^ (t.bits - 1)
  let key : Nat → Int := fun x => if x < 2 ^ (t.bits - 1) then (x : Int) else -((x - 2 ^ (t.bits - 1) : Nat) : Int) - 1
  let pick : (Int → Int → Bool) → Nat → Nat → Nat := fun first x y =>
    if nan x = true then (if nan y = true then F.qnan else y)
    else if nan y = true then x else if first (key x) (key y) = true then x else y
  let lower := pick fun x y => decide (x ≤ y)
  let higher := pick fun x y => decide (y ≤ x)
  let signals : List Nat → Flags := fun l => if (l.any fun x => (arg x).isSig) = true then Flags.nv else 0
  let big : Rat := (F.decode F.maxCode).rat
  let keeps : Nat := min 12 (F.m + 1)
  let cut : Rat → Nat → Prop := fun q r => ∃ (e k : Int), (2 : Rat) ^ (keeps - 1) ≤ k ∧ (k : Rat) < 2 ^ keeps ∧
    k * 2 ^ e ≤ (if q < 0 then -q else q) ∧ (if q < 0 then -q else q) < (k + 1) * 2 ^ e ∧
    if big < k * 2 ^ e then r = F.infCode (decide (q < 0)) else F.Rounded .rz (if q < 0 then -(k * 2 ^ e) else k * 2 ^ e) r
  let comes : Rat → Nat → Prop := fun q r => if full then F.Rounded rm q r else cut q r
  let root : Rat → Nat → Prop := fun y r =>
    if full then F.RoundedRoot rm y r
    else ∃ (e k : Int), (2 : Rat) ^ (keeps - 1) ≤ k ∧ (k : Rat) < 2 ^ keeps ∧ k * k * (2 : Rat) ^ (2 * e) ≤ y ∧
      y < (k + 1) * (k + 1) * (2 : Rat) ^ (2 * e) ∧ (F.decode r).isFin = true ∧ (F.decode r).rat = k * 2 ^ e
  let approx : Instr → (Val → Nat → Prop) → Prop := fun i p =>
    out i (if full then 14 else 8) fun j r => (nan (A j) = true → r = F.qnan) ∧ p (arg (A j)) r
  t.isInt = false →
  gives (.vadd g t d a b rm false false) 4 (fun j r fl =>
    F.Answers rm [arg (A j), arg (B j)] ((arg (A j)).exact.add rm (arg (B j)).exact) false r fl ∧
    scalar (fun h e k l _ => .fadd h t e k l rm) (A j) (B j) 0 r fl) ∧
  gives (.vsub g t d a b rm false false) 4 (fun j r fl =>
    F.Answers rm [arg (A j), arg (B j)] ((arg (A j)).exact.add rm (arg (B j)).exact.neg) false r fl ∧
    scalar (fun h e k l _ => .fsub h t e k l rm) (A j) (B j) 0 r fl) ∧
  gives (.vmul g t d a b rm false false) 4 (fun j r fl =>
    F.Answers rm [arg (A j), arg (B j)] ((arg (A j)).exact.mul (arg (B j)).exact) false r fl ∧
    scalar (fun h e k l _ => .fmul h t e k l rm) (A j) (B j) 0 r fl) ∧
  gives (.vfma g t d a b c rm false false) 4 (fun j r fl =>
    F.Answers rm [arg (A j), arg (B j), arg (C j)]
      (((arg (A j)).exact.mul (arg (B j)).exact).add rm (arg (C j)).exact) false r fl ∧
    scalar (fun h e k l m => .ffma h t e k l m rm) (A j) (B j) (C j) r fl) ∧
  gives (.vfms g t d a b c rm false false) 4 (fun j r fl =>
    F.Answers rm [arg (A j), arg (B j), arg (C j)]
      (((arg (A j)).exact.mul (arg (B j)).exact).add rm (arg (C j)).exact.neg) false r fl ∧
    (nan (C j) = false → scalar (fun h e k l m => .ffma h t e k l m rm) (A j) (B j) (flip (C j)) r fl)) ∧
  gives (.vabs g t d a false) 2 (fun j r fl => r = A j % 2 ^ (t.bits - 1) ∧ fl = 0) ∧
  gives (.vneg g t d a false) 2 (fun j r fl => r = flip (A j) ∧ fl = 0) ∧
  gives (.vmin g t d a b u) 2 (fun j r fl => r = lower (A j) (B j) ∧ fl = signals [A j, B j]) ∧
  gives (.vmax g t d a b u) 2 (fun j r fl => r = higher (A j) (B j) ∧ fl = signals [A j, B j]) ∧
  gives (.vclamp g t d a b c u) 2 (fun j r fl => r = lower (higher (A j) (B j)) (C j) ∧ fl = signals [A j, B j, C j]) ∧
  approx (.vrcp g t d a rm full) (fun x r => (x.isInf = true → r = F.signed x.sign 0) ∧
    (x.isFin = true → x.rat = 0 → r = F.infCode x.sign) ∧ (x.isFin = true → x.rat ≠ 0 → comes (1 / x.rat) r)) ∧
  approx (.vrsq g t d a rm full) (fun x r => (x.isInf = true → r = if x.sign then F.qnan else 0) ∧
    (x.isFin = true → x.rat = 0 → r = F.infCode x.sign) ∧ (x.isFin = true → x.rat < 0 → r = F.qnan) ∧
    (x.isFin = true → 0 < x.rat → root (1 / x.rat) r)) ∧
  approx (.vexp2 g t d a rm full) (fun x r => r = (F.afun .exp2 full rm x).1 ∧ (x.isInf = true → r = if x.sign then 0 else F.infCode false) ∧
    ∀ n : Int, x.isFin = true → x.rat = n → comes (2 ^ n) r) ∧
  approx (.vlog2 g t d a rm full) (fun x r => r = (F.afun .log2 full rm x).1 ∧ (x.isInf = true → r = if x.sign then F.qnan else F.infCode false) ∧
    (x.isFin = true → x.rat = 0 → r = F.infCode true) ∧ (x.isFin = true → x.rat < 0 → r = F.qnan) ∧
    ∀ n : Int, x.isFin = true → x.rat = 2 ^ n → (n = 0 → r = 0) ∧ (n ≠ 0 → comes n r))

/-- When its bundle has issued and its guard is true, VAND, VOR and VXOR put the bitwise result in flight to vd; VSHL,
VSHR and VSAR shift each lane by the lane of vb modulo the width or by the immediate; VCMP writes all ones in each
lane whose condition holds and zero in the others, on float lanes by the order of the numbers with +0 = -0, UN and NE
alone holding where a lane is a NaN; VSEL takes each lane of va where the mask lane's top bit is set and of vb
elsewhere; VMOVP writes whether any or every mask lane is set, or fills a vector from a predicate; and VPCNT counts
the set lanes. (10_vector.md, R227, R231, R235, R236, R237, R238) -/
def Obligations.VectorLogicShiftsAndMasks : Prop :=
  ∀ (s : State) (g : Guard) (t : Ty) (d x : Fin 32) (p : Fin 16) (a b c : Src) (cond : VCond) (k : BitVec 6),
  let L : VReg → Nat → BitVec t.bits := fun v j => v.extractLsb' (j * t.bits) t.bits
  let lanes : Nat := 2048 / t.bits
  let A := L (s.V 1 a)
  let B := L (s.V 2 b)
  let C := L (s.V 3 c)
  let set : BitVec t.bits → Bool := fun m => m.getLsbD (t.bits - 1)
  let real : BitVec t.bits → Val := fun y => (tyFmt t).decode y.toNat
  let out : Instr → Nat → (Nat → BitVec t.bits) → Prop := fun i lat f =>
    Performs i s → ∃ v, exec i s = .next (s.result (.v d v) 0 .vector lat) ∧ ∀ j < lanes, L v j = f j
  let holds : BitVec t.bits → BitVec t.bits → Bool := fun y z =>
    match cond with
    | .c0 => y == z
    | .c1 => y != z
    | .c2 => y.slt z
    | .c3 => !y.slt z
    | .c4 => y.ult z
    | .c5 => !y.ult z
  let below : Val → Val → Bool := fun y z =>
    if y.isInf = true then y.sign && !(z.isInf && z.sign)
    else if z.isInf = true then !z.sign else decide (y.rat < z.rat)
  let order : Val → Val → Bool := fun y z =>
    if y.isNan = true ∨ z.isNan = true then (match cond with | .c3 => true | .c4 => true | _ => false)
    else match cond with
      | .c0 => !below y z && !below z y
      | .c1 => below y z
      | .c2 => !below z y
      | .c3 => false
      | _ => below y z || below z y
  (Performs (.vand g t d a b) s → exec (.vand g t d a b) s = .next (s.result (.v d (s.V 1 a &&& s.V 2 b)) 0 .vector 2)) ∧
  (Performs (.vor g t d a b) s → exec (.vor g t d a b) s = .next (s.result (.v d (s.V 1 a ||| s.V 2 b)) 0 .vector 2)) ∧
  (Performs (.vxor g t d a b) s → exec (.vxor g t d a b) s = .next (s.result (.v d (s.V 1 a ^^^ s.V 2 b)) 0 .vector 2)) ∧
  out (.vshl g t d a (.lanes b)) 2 (fun j => A j <<< ((B j).toNat % t.bits)) ∧
  out (.vshr g t d a (.lanes b)) 2 (fun j => A j >>> ((B j).toNat % t.bits)) ∧
  out (.vsar g t d a (.lanes b)) 2 (fun j => (A j).sshiftRight ((B j).toNat % t.bits)) ∧
  out (.vshl g t d a (.imm k)) 2 (fun j => A j <<< k.toNat) ∧
  out (.vshr g t d a (.imm k)) 2 (fun j => A j >>> k.toNat) ∧
  out (.vsar g t d a (.imm k)) 2 (fun j => (A j).sshiftRight k.toNat) ∧
  (t.isInt = true → out (.vcmp g t d a b cond) 2 (fun j => if holds (A j) (B j) then BitVec.allOnes t.bits else 0)) ∧
  (t.isInt = false → cond ≠ .c5 → Performs (.vcmp g t d a b cond) s →
    ∃ v fl, exec (.vcmp g t d a b cond) s = .next (s.result (.v d v) fl .vector 2) ∧
      ∀ j < lanes, L v j = if order (real (A j)) (real (B j)) then BitVec.allOnes t.bits else 0) ∧
  out (.vsel g t d a b c) 2 (fun j => if set (C j) then A j else B j) ∧
  (Performs (.vmovp g t (.any p a)) s → exec (.vmovp g t (.any p a)) s =
    .next (s.result (.p p (decide (∃ j < lanes, set (A j) = true))) 0 .vector 2)) ∧
  (Performs (.vmovp g t (.all p a)) s → exec (.vmovp g t (.all p a)) s =
    .next (s.result (.p p (decide (∀ j < lanes, set (A j) = true))) 0 .vector 2)) ∧
  (Performs (.vmovp g t (.sp d p)) s → exec (.vmovp g t (.sp d p)) s =
    .next (s.result (.v d (if s.P p then BitVec.allOnes 2048 else 0)) 0 .vector 2)) ∧
  (Performs (.vpcnt g t x a) s → exec (.vpcnt g t x a) s =
    .next (s.result (.x x (BitVec.ofNat 64 ((List.range lanes).filter fun j => set (A j)).length)) 0 .vector 4))

/-- When its bundle has issued and its guard is true, VCVT between lane types, to a packed format and from one answers
a next state with a vector in flight to vd: element j of the chunk it writes is element j of the chunk it reads
converted, a float or a taper code by ToFmt without sat and an integer by R142 clipped to its range, while an integer
from an integer wraps to the low bits, or with sat is clipped too; the elements outside the chunk it writes are those
of the old vd. VQUANT answers one with, in the chunk part, the codes of each block of 32 lanes under R214: a scale
byte of 0xFF and codes 0 where a lane is a NaN, else 0 where every finite lane is zero and 127 + Floor(Log2) - emax
within 0 to 254 of the largest finite magnitude, each lane times 2^(127-c) converted with sat and an infinity taken as
the largest number (minus infinity as the MXINT8 code 0x81, log 18, deduced); the elements outside are those of the
old vd, and the scale bytes are in flight to xc with zeros above. VDEQ answers one with each lane its element times
2^(c-127) converted to the lane type, or the canonical NaN where the scale byte is 0xFF or the element a NaN.
(10_vector.md, 09_numbers.md, R213, R214, R239, R240, R241, R242, R231) -/
def Obligations.VectorConversions : Prop :=
  ∀ (s : State) (g : Guard) (t frm : Ty) (d x : Fin 32) (a b : Src) (rm : Rm) (sat u : Bool) (f : MFmt) (part : BitVec 4),
  let lane : Ty → Nat → Val := fun t x => if t.isInt then .ofInt (if u then (x : Int) else (BitVec.ofNat t.bits x).toInt) else (tyFmt t).decode x
  let old := s.bank.v[d]
  let E : Nat → VReg → Nat → Nat := fun w v j => v.toNat / 2 ^ (j * w) % 2 ^ w
  let integer : Nat → Bool → Val → Nat → Prop := fun w un v y =>
    if sat then IntConverted w un .rne v y else ∃ k : Int, v.rat = k ∧ (y : Int) = k % (2 ^ w : Nat)
  let moves : Nat → Nat → (Nat → Nat → Prop) → VReg → Prop := fun db sb rel v =>
    let dn := 2048 / db
    let sn := 2048 / sb
    let m := min dn sn
    let first := if m < dn then part.toNat * m else 0
    let take := if m < sn then part.toNat * m else 0
    ((part.toNat + 1) * m ≤ max dn sn → ∀ j < m, rel (E sb (s.V 1 a) (take + j)) (E db v (first + j))) ∧
    ∀ k < 2048, (k < first * db ∨ (first + m) * db ≤ k) → v.getLsbD k = old.getLsbD k
  let cvt : BitVec 3 → BitVec 3 → BitVec 5 → (VReg → Prop) → Prop := fun into from_ fmt p =>
    let i : Instr := .vcvt g into d a rm sat u from_ fmt part
    Performs i s → ∃ v fl, exec i s = .next (s.result (.v d v) fl .vector 4) ∧ p v
  let n : Nat := 2048 / t.bits
  let F : FFmt := tyFmt t
  let signed : MFmt → Bool := fun f => f != .u8 && f != .u4
  let emax : Int := match f with
    | .mx8e4 => 8 | .mx8e5 => 15 | .f6 => 4 | .f6m3 => 2 | .f4 => 2 | .mxi8 => 0 | .mxtap8 => 12 | _ => 8
  let largest : Bool → Nat := fun neg => match f with
    | .mx8e4 => fpE4m3.signed neg 0x7E | .mx8e5 => fpE5m2.signed neg 0x7B | .f6 => fpE3m2.signed neg 0x1F
    | .f6m3 => fpE2m3.signed neg 0x1F | .f4 => fpE2m1.signed neg 7 | .mxtap6 => taperSigned 6 neg 0x1F
    | _ => taperSigned 8 neg 0x7F
  (t ≠ .i64 → frm ≠ .i64 → cvt (BitVec.ofNat 3 t.code) (BitVec.ofNat 3 frm.code) 0 (moves t.bits frm.bits fun x y =>
    if t.isInt = true ∧ frm.isInt = true then integer t.bits u (lane frm x) y else TyConverted t u rm (lane frm x) y)) ∧
  (t ≠ .i64 → f.scaled = false → cvt 7 (BitVec.ofNat 3 t.code) (BitVec.ofNat 5 f.code) (moves f.bits t.bits fun x y =>
    if f.isInt = true ∧ t.isInt = true then integer f.bits (!signed f) (lane t x) y else ElemConverted f rm false (lane t x) y)) ∧
  (t ≠ .i64 → f.scaled = false → cvt (BitVec.ofNat 3 t.code) 7 (BitVec.ofNat 5 f.code) (moves t.bits f.bits fun x y =>
    if f.isInt = true ∧ t.isInt = true then integer t.bits u (mdecode f x) y else TyConverted t u rm (mdecode f x) y)) ∧
  (Performs (.vquant g t d a x rm f part) s → t.isInt = false → f.scaled = true →
    ∃ v fl w, exec (.vquant g t d a x rm f part) s = .next ((s.result (.v d v) fl .vector 6).result (.x x w) 0 .vector 6) ∧
      w.toNat < 2 ^ (8 * (n / 32)) ∧
      (∀ k < 2048, (k < part.toNat * n * f.bits ∨ (part.toNat + 1) * n * f.bits ≤ k) → v.getLsbD k = old.getLsbD k) ∧
      ((part.toNat + 1) * n ≤ 2048 / f.bits → ∀ k < n / 32,
        let X : Nat → Val := fun i => F.decode (E t.bits (s.V 1 a) (32 * k + i))
        let size : Nat → Rat := fun i => if (X i).sign then -(X i).rat else (X i).rat
        let code : Nat → Nat := fun i => E f.bits v (part.toNat * n + 32 * k + i)
        let c : Nat := w.toNat / 2 ^ (8 * k) % 256
        ((∃ i < 32, (X i).isNan = true) → c = 0xFF ∧ ∀ i < 32, code i = 0) ∧
        ((∀ i < 32, (X i).isNan = false) →
          ((∀ i < 32, (X i).isFin = true → (X i).rat = 0) → c = 0) ∧
          (∀ e : Int, (∃ i < 32, (X i).isFin = true ∧ (2 : Rat) ^ e ≤ size i) →
            (∀ i < 32, (X i).isFin = true → size i < 2 ^ (e + 1)) → (c : Int) = 127 + min 127 (max (-127) (e - emax))) ∧
          ∀ i < 32, ((X i).isInf = true → code i = largest (X i).sign) ∧
            ((X i).isFin = true → ElemConverted f rm true ((X i).scale (127 - (c : Int))) (code i))))) ∧
  (Performs (.vdeq g t d a b rm f part) s → t.isInt = false → f.scaled = true →
    ∃ v fl, exec (.vdeq g t d a b rm f part) s = .next (s.result (.v d v) fl .vector 6) ∧
      ∀ j < n,
        let c : Nat := (s.X 2 b).toNat / 2 ^ (8 * (j / 32)) % 256
        let y : Val := mdecode f (E f.bits (s.V 1 a) (part.toNat * n + j))
        (c = 0xFF ∨ y.isNan = true → E t.bits v j = F.qnan) ∧
        (c ≠ 0xFF → F.Converted rm false (y.scale ((c : Int) - 127)) (E t.bits v j)))

/-- When its bundle has issued and its guard is true: on integer lanes VRSUM puts the sum of the lanes, modulo 2^32 or
with sat clipped to 32 bits, in bytes 0 to 3 of vd and zero above; VRMAX and VRMIN put an extreme lane, which some
lane equals and none passes, in element 0 and zero above; VSCAN puts in lane j the sum of lanes 0 to j, with sat
clipped at each step, or in lane 0 lane 0 and in lane j+1 the larger or smaller of prefix and lane. On float lanes
VRSUM puts the exact sum rounded once to FP32 in bytes 0 to 3, 0x7FC00000 for a NaN or mixed infinities, an infinite
lane's infinity, and for an exact zero -0 only where every lane is -0; VRMAX and VRMIN put in element 0 the canonical
NaN if every lane is one and else a lane that is a number and that no other number passes, -0 below +0; VSCAN adds
lane by lane, rounding at each step, from lane 0 with a NaN made canonical, or takes the higher or lower of prefix and
lane. (10_vector.md, R231, R233, R245, R246) -/
def Obligations.VectorReductions : Prop :=
  ∀ (s : State) (g : Guard) (t : Ty) (d : Fin 32) (a : Src) (rm : Rm) (sat u : Bool),
  let lanes : Nat := 2048 / t.bits
  let L : VReg → Nat → BitVec t.bits := fun v j => v.extractLsb' (j * t.bits) t.bits
  let A := L (s.V 1 a)
  let val : BitVec t.bits → Int := fun x => if u then (x.toNat : Int) else x.toInt
  let clip : Nat → Int → Int := fun w x =>
    let lo : Int := if u then 0 else -(2 ^ (w - 1) : Nat)
    let hi : Int := if u then (2 ^ w : Nat) - 1 else (2 ^ (w - 1) : Nat) - 1
    if x < lo then lo else if hi < x then hi else x
  let F : FFmt := tyFmt t
  let num : BitVec t.bits → Val := fun x => F.decode x.toNat
  let key : BitVec t.bits → Int := fun x =>
    if x.getLsbD (t.bits - 1) then -((x.toNat : Int) - 2 ^ (t.bits - 1)) - 1 else x.toNat
  let out : Instr → Nat → (VReg → Prop) → Prop := fun i lat p =>
    Performs i s → ∃ v fl, exec i s = .next (s.result (.v d v) fl .vector lat) ∧ p v
  let extreme : Bool → VReg → Prop := fun max v =>
    v = (L v 0).setWidth 2048 ∧
    ((∀ j < lanes, (num (A j)).isNan = true) → L v 0 = BitVec.ofNat t.bits F.qnan) ∧
    ((∃ j < lanes, (num (A j)).isNan = false) →
      (∃ k < lanes, (num (A k)).isNan = false ∧ L v 0 = A k) ∧
      ∀ j < lanes, (num (A j)).isNan = false → if max then key (A j) ≤ key (L v 0) else key (L v 0) ≤ key (A j))
  let pick : Bool → BitVec t.bits → BitVec t.bits → BitVec t.bits := fun max y x =>
    if (num y).isNan = true then (if (num x).isNan = true then BitVec.ofNat t.bits F.qnan else x)
    else if (num x).isNan = true then y
    else if max then (if key y < key x then x else y) else (if key x < key y then x else y)
  (t.isInt = true →
    (Performs (.vrsum g t d a rm false u) s → exec (.vrsum g t d a rm false u) s =
      .next (s.result (.v d ((BitVec.ofInt 32 ((List.range lanes).map fun j => val (A j)).sum).setWidth 2048)) 0 .vector 6)) ∧
    out (.vrsum g t d a rm true u) 6 (fun v =>
      v = (BitVec.ofInt 32 (clip 32 ((List.range lanes).map fun j => val (A j)).sum)).setWidth 2048) ∧
    (Performs (.vrmax g t d a u) s → ∃ k < lanes, (∀ j < lanes, val (A j) ≤ val (A k)) ∧
      exec (.vrmax g t d a u) s = .next (s.result (.v d ((A k).setWidth 2048)) 0 .vector 6)) ∧
    (Performs (.vrmin g t d a u) s → ∃ k < lanes, (∀ j < lanes, val (A k) ≤ val (A j)) ∧
      exec (.vrmin g t d a u) s = .next (s.result (.v d ((A k).setWidth 2048)) 0 .vector 6)) ∧
    (Performs (.vscan g t d a rm false u .add) s → ∃ v, exec (.vscan g t d a rm false u .add) s = .next (s.result (.v d v) 0 .vector 8) ∧
      ∀ j < lanes, L v j = BitVec.ofInt t.bits ((List.range (j + 1)).map fun k => val (A k)).sum) ∧
    out (.vscan g t d a rm true u .add) 8 (fun v => L v 0 = A 0 ∧
      ∀ j, j + 1 < lanes → L v (j + 1) = BitVec.ofInt t.bits (clip t.bits (val (L v j) + val (A (j + 1))))) ∧
    (Performs (.vscan g t d a rm false u .max) s → ∃ v, exec (.vscan g t d a rm false u .max) s = .next (s.result (.v d v) 0 .vector 8) ∧
      L v 0 = A 0 ∧ ∀ j, j + 1 < lanes → L v (j + 1) = if val (L v j) < val (A (j + 1)) then A (j + 1) else L v j) ∧
    (Performs (.vscan g t d a rm false u .min) s → ∃ v, exec (.vscan g t d a rm false u .min) s = .next (s.result (.v d v) 0 .vector 8) ∧
      L v 0 = A 0 ∧ ∀ j, j + 1 < lanes → L v (j + 1) = if val (L v j) < val (A (j + 1)) then L v j else A (j + 1))) ∧
  (t.isInt = false →
    out (.vrsum g t d a rm sat u) 6 (fun v =>
      let bad : Prop := (∃ j < lanes, (num (A j)).isNan = true) ∨
        (∃ j < lanes, num (A j) = .inf false) ∧ ∃ j < lanes, num (A j) = .inf true
      let q : Rat := ((List.range lanes).map fun j => (num (A j)).rat).sum
      let r : Nat := v.toNat
      r < 2 ^ 32 ∧ (bad → r = 0x7FC00000) ∧
      (¬ bad → ∀ j < lanes, (num (A j)).isInf = true → r = fp32.infCode (num (A j)).sign) ∧
      ((∀ j < lanes, (num (A j)).isFin = true) →
        (q = 0 → r = fp32.signed (decide (∀ j < lanes, (num (A j)).rat = 0 ∧ (num (A j)).sign = true)) 0) ∧
        (q ≠ 0 → fp32.Rounded rm q r))) ∧
    out (.vrmax g t d a u) 6 (extreme true) ∧
    out (.vrmin g t d a u) 6 (extreme false) ∧
    out (.vscan g t d a rm sat u .add) 8 (fun v => F.Converted rm false (num (A 0)) (L v 0).toNat ∧
      ∀ j, j + 1 < lanes →
        let y : Val := num (L v j)
        let x : Val := num (A (j + 1))
        F.Takes rm (y.exact.add rm x.exact) (L v (j + 1)).toNat) ∧
    out (.vscan g t d a rm sat u .max) 8 (fun v => L v 0 = A 0 ∧
      ∀ j, j + 1 < lanes → L v (j + 1) = pick true (L v j) (A (j + 1))) ∧
    out (.vscan g t d a rm sat u .min) 8 (fun v => L v 0 = A 0 ∧
      ∀ j, j + 1 < lanes → L v (j + 1) = pick false (L v j) (A (j + 1))))

/-- When its bundle has issued and its guard is true, VPERM puts in each lane the lane of va that the unsigned index
in vb names, or 0 for an index of n or more; VSPLAT the low bits of X(a) in every lane; VINS them in lane X(b) mod n
with every other lane of vd kept; VEXT lane X(b) mod n in xd, sign-extended for integer types unless u is set and else
zero-extended; and VIOTA X(a) + j X(b) in lane j; all without flags. VEXT with u and a float type does not decode.
(R247) -/
def Obligations.LaneMoves : Prop :=
  ∀ (s : State) (g : Guard) (t : Ty) (d x : Fin 32) (a b : Src) (u : Bool),
  let lanes : Nat := 2048 / t.bits
  let L : VReg → Nat → BitVec t.bits := fun v j => v.extractLsb' (j * t.bits) t.bits
  let out : Instr → Nat → (Nat → BitVec t.bits) → Prop := fun i lat f =>
    Performs i s → ∃ v, exec i s = .next (s.result (.v d v) 0 .vector lat) ∧ ∀ j < lanes, L v j = f j
  let low : BitVec t.bits := (s.X 1 a).setWidth t.bits
  let place : Nat := (s.X 2 b).toNat % lanes
  out (.vperm g t d a b) 4 (fun j => if (L (s.V 2 b) j).toNat < lanes then L (s.V 1 a) (L (s.V 2 b) j).toNat else 0) ∧
  out (.vsplat g t d a) 2 (fun _ => low) ∧
  out (.vins g t d a b) 2 (fun j => if j = place then low else L s.bank.v[d] j) ∧
  out (.viota g t d a b) 2 (fun j => BitVec.ofNat t.bits ((s.X 1 a).toNat + j * (s.X 2 b).toNat)) ∧
  (Performs (.vext g t x a b u) s →
    exec (.vext g t x a b u) s = .next (s.result (.x x
      (if t.isInt = true ∧ u = false then (L (s.V 1 a) place).signExtend 64 else (L (s.V 1 a) place).setWidth 64)) 0 .vector 2)) ∧
  (t.isInt = false → ∀ (dr : Bool) (c : SClass) (w : Nat), decode dr c w ≠ some (.vext g t x a b true))

/-- When its bundle has issued and its guard is true, VPART in arm mode puts j shifted by s in each lane j of vd whose
outcome lane equals the low 32 bits of X(b) and 0x80000000 in the others; in list mode the equal lanes' values stand
from lane 0 on in ascending order and 0x80000000 above them; in both xc receives their number. With a type other than
i32 it does not decode. (R248) -/
def Obligations.PartitionOfLanes : Prop :=
  ∀ (s : State) (g : Guard) (d x : Fin 32) (a b : Src) (sl : BitVec 4),
  let L : VReg → Nat → BitVec 32 := fun v j => v.extractLsb' (j * 32) 32
  let o : BitVec 32 := (s.X 2 b).setWidth 32
  let eq : Nat → Bool := fun j => L (s.V 1 a) j == o
  let below : Nat → Nat := fun j => ((List.range j).filter eq).length
  let out : VReg → Host.Outcome State Fault Refusal := fun v =>
    .next ((s.result (.v d v) 0 .vector 4).result (.x x (BitVec.ofNat 64 (below 64))) 0 .vector 4)
  (Performs (.vpart g .i32 d a b x true sl) s → ∃ v, exec (.vpart g .i32 d a b x true sl) s = out v ∧
    ∀ j < 64, L v j = if eq j then BitVec.ofNat 32 (j * 2 ^ sl.toNat) else 0x80000000) ∧
  (Performs (.vpart g .i32 d a b x false sl) s → ∃ v, exec (.vpart g .i32 d a b x false sl) s = out v ∧
    (∀ j < 64, eq j = true → L v (below j) = BitVec.ofNat 32 (j * 2 ^ sl.toNat)) ∧
    ∀ k < 64, below 64 ≤ k → L v k = 0x80000000) ∧
  ∀ (y : Ty) (arm dr : Bool) (c : SClass) (w : Nat), y ≠ .i32 → decode dr c w ≠ some (.vpart g y d a b x arm sl)

/-- When its bundle has issued and its guard is true, VCOMP puts each set lane of va in the lane whose number is the
count of set mask lanes below it, zero above the last, and the number of set lanes in xc; VEXPD puts in each set lane
the lane of va whose number is the count of set mask lanes below it, and zero in the others; so where va of VEXPD is a
vector that VCOMP wrote under the same mask, every set lane is the lane that VCOMP read and every other lane is zero.
(R249) -/
def Obligations.CompressAndExpand : Prop :=
  ∀ (s r : State) (g h : Guard) (t : Ty) (d x e : Fin 32) (a b c m : Src),
  let lanes : Nat := 2048 / t.bits
  let L : VReg → Nat → BitVec t.bits := fun v j => v.extractLsb' (j * t.bits) t.bits
  let set : VReg → Nat → Bool := fun v j => (L v j).getLsbD (t.bits - 1)
  let below : VReg → Nat → Nat := fun v j => ((List.range j).filter (set v)).length
  (Performs (.vcomp g t d a b x) s → ∃ v,
    exec (.vcomp g t d a b x) s =
      .next ((s.result (.v d v) 0 .vector 4).result (.x x (BitVec.ofNat 64 (below (s.V 2 b) lanes))) 0 .vector 4) ∧
    (∀ j < lanes, set (s.V 2 b) j = true → L v (below (s.V 2 b) j) = L (s.V 1 a) j) ∧
    (∀ k < lanes, below (s.V 2 b) lanes ≤ k → L v k = 0) ∧
    (Performs (.vexpd h t e c m) r → r.V 1 c = v → r.V 2 m = s.V 2 b → ∃ w,
      exec (.vexpd h t e c m) r = .next (r.result (.v e w) 0 .vector 4) ∧
      ∀ j < lanes, L w j = if set (s.V 2 b) j then L (s.V 1 a) j else 0)) ∧
  (Performs (.vexpd h t e c m) r → ∃ w,
    exec (.vexpd h t e c m) r = .next (r.result (.v e w) 0 .vector 4) ∧
    ∀ j < lanes, L w j = if set (r.V 2 m) j then L (r.V 1 c) (below (r.V 2 m) j) else 0)

/-- When its bundle has issued and its guard is true, LDS answers a next state with the W bytes at window offsets X(a)
+ SExt(disp, 32) onward in flight to xd for 2 cycles, zero-extended with u or a float type and sign-extended
otherwise; LDV the 256 bytes there to vd; LDVS after 4 cycles the elements at X(a) + j × X(b), packed; GATH after 4
cycles the 4 bytes at X(b) + o[30:0] for each lane whose o[31] is clear, and zero for the others. Every byte is read
at (base + Wrap(offset, size)) mod 2^20 from the scratchpad as it stood before the bundle, and nothing else is
changed. (07_fed.md, 08_access_and_copy.md, R160, R176, R177, R178, R179) -/
def Obligations.ScratchLoads : Prop :=
  ∀ (s : State) (g : Guard) (t : Ty) (d : Fin 32) (a b : Src) (w : Fin 8) (u : Bool) (disp : BitVec 32),
  let win : Window := s.issue.ctx.bank.w[w]
  let at_ : Int → Byte := fun o =>
    Sparse.get 0 s.issue.mem.spad ((win.base.toNat + (o % (pow2Up win.size.toNat : Nat)).toNat) % 2 ^ 20)
  let off : Int := (s.X 1 a).toNat + disp.toInt
  (Performs (.lds g t d a w u disp) s → ∃ v : BitVec (8 * t.width),
    (∀ j < t.width, v.extractLsb' (8 * j) 8 = at_ (off + (j : Int))) ∧
    exec (.lds g t d a w u disp) s =
      .next (s.result (.x d (if u = true ∨ t.isInt = false then v.setWidth 64 else v.signExtend 64)) 0 .scalar 2)) ∧
  (Performs (.ldv g d a w disp) s → ∃ v : VReg, (∀ j < 256, v.extractLsb' (8 * j) 8 = at_ (off + (j : Int))) ∧
    exec (.ldv g d a w disp) s = .next (s.result (.v d v) 0 .vector 2)) ∧
  (Performs (.ldvs g t d a b w) s → t = .i32 ∨ t = .i16 ∨ t = .i8 → ∃ v : VReg,
    (∀ j < 256, v.extractLsb' (8 * j) 8 =
      at_ ((s.X 1 a).toNat + ((j / t.width : Nat) : Int) * (s.X 2 b).toInt + ((j % t.width : Nat) : Int))) ∧
    exec (.ldvs g t d a b w) s = .next (s.result (.v d v) 0 .vector 4)) ∧
  (Performs (.gath g d a b w) s → ∃ v : VReg,
    (∀ j < 64, ∀ i < 4, v.extractLsb' (32 * j + 8 * i) 8 =
      if (s.V 1 a).getLsbD (32 * j + 31) then 0
      else at_ (((s.X 2 b).toNat + ((s.V 1 a).extractLsb' (32 * j) 31).toNat + i : Nat) : Int)) ∧
    exec (.gath g d a b w) s = .next (s.result (.v d v) 0 .vector 4))

/-- When its bundle has issued and its guard is true, STS answers a next state in which the W low bytes of X(d), and
STV one in which the 256 bytes of V(d), stand at window offsets X(a) + SExt(disp, 32) onward, each byte at (base +
Wrap(offset, size)) mod 2^20; SCAT one reached by storing, in ascending lane order, the 4 bytes of lane j of V(d) at
X(b) + o[30:0] for each lane whose o[31] is clear. Bytes of the constant window, and of counters that a store covers
in part only, keep their values; every other byte of the scratchpad is unchanged, errors of units that are not written
stay (a unit that is written has none left, log 27), and nothing else of the machine changes. (Each lane of SCAT is a
store of its own, log 34.) (07_fed.md, 08_access_and_copy.md, R160, R161, R176, R178, R179) -/
def Obligations.ScratchStores : Prop :=
  ∀ (s : State) (g : Guard) (t : Ty) (d a b : Src) (w : Fin 8) (disp : BitVec 32),
  let win : Window := s.issue.ctx.bank.w[w]
  let off : Int := (s.X 1 a).toNat + disp.toInt
  let old : TileMem := (s.tile s.homeTile).mem
  let done : TileMem → State := fun m => s.modTile s.homeTile fun T => { T with mem := m }
  Sparse.wf 0 old.spad = true →
  (Performs (.sts g t d a w disp) s → ∃ m, exec (.sts g t d a w disp) s = .next (done m) ∧
    TileMem.Stored old m win off (t.width) (s.X 0 d).toNat) ∧
  (Performs (.stv g d a w disp) s → ∃ m, exec (.stv g d a w disp) s = .next (done m) ∧
    TileMem.Stored old m win off 256 (s.V 0 d).toNat) ∧
  (Performs (.scat g d a b w) s → ∃ m : Nat → TileMem, exec (.scat g d a b w) s = .next (done (m 64)) ∧ m 0 = old ∧
    ∀ j < 64,
      ((s.V 1 a).getLsbD (32 * j + 31) = true → m (j + 1) = m j) ∧
      ((s.V 1 a).getLsbD (32 * j + 31) = false →
        TileMem.Stored (m j) (m (j + 1)) win (((s.X 2 b).toNat + ((s.V 1 a).extractLsb' (32 * j) 31).toNat : Nat) : Int) 4
          ((s.V 0 d).extractLsb' (32 * j) 32).toNat))

/-- When its bundle has issued and its guard is true, and the values are within R180 and R181, WINSET answers a next
state whose window wd has base X(a) and size X(b), RINGSET one whose ring qd has base X(a), the given lsize and esz
and all four indices 0, RADV one whose prod and res have risen by k = X(a) + n modulo 2^32, RREL one whose rel has,
XLT one whose handle waits for the walk of X(a) that has been started, HREL one whose handle is clear, and HINFO one
with the handle's image of R166, or its kept page as an address, in flight to xd; nothing else is changed. (07_fed.md,
08_access_and_copy.md, R162, R166, R180, R181, R182, R183, R184) -/
def Obligations.WindowsRingsAndHandles : Prop :=
  ∀ (s : State) (g : Guard) (t : TileId) (c : Fin 4) (w : Fin 8) (q : Fin 16) (h : Fin 16) (d : Fin 32) (a b : Src)
    (lsize : BitVec 5) (esz : BitVec 4) (n : BitVec 17),
  let A : Agent := .ctx t c
  let rise : BitVec 32 := ((s.X 1 a) + n.setWidth 64).setWidth 32
  let setRing : (Ring → Ring) → State := fun f => s.modCtx A fun k =>
    { k with bank := { k.bank with q := k.bank.q.set q (f k.bank.q[q]) } }
  let setHandle : (Handle → Handle) → State → State := fun f => fun s => s.modCtx A fun k =>
    { k with bank := { k.bank with h := k.bank.h.set h (f k.bank.h[h]) } }
  let hd : Handle := s.issue.ctx.bank.h[h]
  s.issue.agent = A →
  (Performs (.winset g w a b) s → (s.X 1 a).toNat ≤ 0xFFFFF → (s.X 2 b).toNat ≤ 0x100000 → ∃ v : Window,
    v.base.toNat = (s.X 1 a).toNat ∧ v.size.toNat = (s.X 2 b).toNat ∧
    exec (.winset g w a b) s = .next (s.modCtx A fun k => { k with bank := { k.bank with w := k.bank.w.set w v } })) ∧
  (Performs (.ringset g q a lsize esz) s → (s.X 1 a).toNat ≤ 0xFFFFF → ∃ v : Ring,
    v.base.toNat = (s.X 1 a).toNat ∧ v.lsize = lsize ∧ v.esz = esz ∧ v.prod = 0 ∧ v.rd = 0 ∧ v.rel = 0 ∧ v.res = 0 ∧
    exec (.ringset g q a lsize esz) s = .next (setRing fun _ => v)) ∧
  (Performs (.radv g q a n) s →
    exec (.radv g q a n) s = .next (setRing fun r => { r with prod := r.prod + rise, res := r.res + rise })) ∧
  (Performs (.rrel g q a n) s → exec (.rrel g q a n) s = .next (setRing fun r => { r with rel := r.rel + rise })) ∧
  (Performs (.xlt g h a) s →
    exec (.xlt g h a) s = .next ((setHandle (fun x => { x with pending := true }) s).modTile t fun T =>
      { T with walks := T.walks ++ [⟨c, h, (s.X 1 a).toNat⟩] })) ∧
  (Performs (.hrel g h) s → exec (.hrel g h) s =
    .next (setHandle (fun _ => ⟨false, false, false, false, false, false, false, 0, 0, 0, 0, 0, false⟩) s)) ∧
  (Performs (.hinfo g d h false) s → ∃ v : Word,
    v.getLsbD 63 = hd.valid ∧ v.getLsbD 62 = hd.miss ∧ v.getLsbD 61 = hd.large ∧ v.getLsbD 60 = hd.nalloc ∧
    v.getLsbD 59 = hd.unb ∧ v.getLsbD 58 = hd.write ∧ v.getLsbD 57 = hd.read ∧ v.extractLsb' 48 8 = hd.owner ∧ v.getLsbD 56 = false ∧
    v.extractLsb' 16 32 = hd.frame ∧ v.extractLsb' 10 6 = hd.slice ∧ v.extractLsb' 6 4 = hd.home ∧ v.extractLsb' 0 6 = 0 ∧
    exec (.hinfo g d h false) s = .next (s.result (.x d v) 0 .scalar 1)) ∧
  (Performs (.hinfo g d h true) s →
    exec (.hinfo g d h true) s = .next (s.result (.x d (hd.page.setWidth 64 <<< 16)) 0 .scalar 1))

/-- When its bundle has issued and its guard is true, and its offset is not negative, MLD answers a next state in
which one access of W bytes at the handle's frame × 2^16 + offset has entered the tile's list under the next serial
number, filling one claimed entry of ring qd from its old res on; MLDV one with an access of 256 bytes filling max(1,
256 / 2^esz) entries; SQLD one with an access of 32 × n bytes filling n claimed entries of the scale queue. The
access's parts are those bytes in order, each part inside an aligned 8-byte unit; through a cleared handle it has no
parts, and the handle's miss bit is set. Nothing else is changed. (07_fed.md, 08_access_and_copy.md, R165, R168, R186,
R187, R191) -/
def Obligations.LoadsThroughHandles : Prop :=
  ∀ (s : State) (g : Guard) (t : TileId) (c : Fin 4) (y : Ty) (u : Bool) (q h : Fin 16) (z : Fin 2) (a : Src)
    (disp : BitVec 31) (n1 : BitVec 4),
  let A : Agent := .ctx t c
  let hd : Handle := s.issue.ctx.bank.h[h]
  let r : Ring := s.issue.ctx.bank.q[q]
  let off : Int := (s.X 1 a).toNat + disp.toInt
  let entered : Access → State := fun x => s.modTile t fun T => { T with accs := T.accs ++ [x], serial := T.serial + 1 }
  let missed : State → State := fun u =>
    if hd.valid then u
    else u.modCtx A fun k => { k with bank := { k.bank with h := k.bank.h.set h { k.bank.h[h] with miss := true } } }
  let claimed : Nat → State → State := fun e u => u.modCtx A fun k =>
    { k with bank := { k.bank with q := k.bank.q.set q { k.bank.q[q] with res := k.bank.q[q].res + BitVec.ofNat 32 e } } }
  let load : Access → Nat → Nat → Prop := fun x o n =>
    x.id = (s.tile t).serial ∧ x.ctx = c ∧ x.hdl = h ∧ x.off = o ∧ x.admitted = true ∧ x.landed = false ∧ x.err = false ∧ x.data = List.replicate n 0 ∧
    (if hd.valid then Piece.Cover x.pieces (hd.frame.toNat * 2 ^ 16 + o) n else x.pieces = [])
  s.issue.agent = A → y.isInt = true ∨ u = false →
  (Performs (.mld g y (.ring q) a h u disp) s → 0 ≤ off → ∃ x, load x off.toNat y.width ∧
    x.kind = .load y.width (y.isInt && !u) ∧ x.dest = .ring q (s.ctx A).bank.q[q].res 1 ∧
    exec (.mld g y (.ring q) a h u disp) s = .next (missed (claimed 1 (entered x)))) ∧
  (Performs (.mldv g q a h disp) s → 0 ≤ off → ∃ x e, load x off.toNat 256 ∧ x.kind = .loadV ∧
    e = (if r.esz.toNat ≤ 8 then 2 ^ (8 - r.esz.toNat) else 1) ∧ x.dest = .ring q (s.ctx A).bank.q[q].res e ∧
    exec (.mldv g q a h disp) s = .next (missed (claimed e (entered x)))) ∧
  (Performs (.sqld g z a n1 h) s → ∃ x, load x (s.X 1 a).toNat (32 * (n1.toNat + 1)) ∧
    x.kind = .scales (z == 1) (n1.toNat + 1) ∧ x.dest = .scale (z == 1) (n1.toNat + 1) ∧
    exec (.sqld g z a n1 h) s = .next (missed ((entered x).modCtx A fun k =>
      { k with bank :=
        if z = 1 then { k.bank with sqb := k.bank.sqb ++ (List.range (n1.toNat + 1)).map fun j => .claimed x.id j }
        else { k.bank with sqa := k.bank.sqa ++ (List.range (n1.toNat + 1)).map fun j => .claimed x.id j } })))

/-- When its bundle has issued and its guard is true, MGATH answers a next state in which one gather access has
entered the tile's list under the next serial number; its parts are, in lane order, one element of the type's width
for each lane whose o[31] is clear and whose handle o[30:27] is valid, at that handle's frame plus o[26:0] + X(b),
with the nalloc bit and home of that handle; its lane map gives each such lane the place of its element in the data
and every other lane none; the entries for 256 bytes are claimed from the ring's old res, which rises by them; the
active lanes of cleared handles are the set bits of the mask in flight to xc for 1 cycle, and those handles' miss bits
are set; nothing else is changed. SQPUSH answers one in which entries 0 to n - 1 of V(a), 32 bytes each, stand landed
at the end of the scale queue. (08_access_and_copy.md, 07_fed.md, R165, R166, R188, R191) -/
def Obligations.GatherAndScalePush : Prop :=
  ∀ (s : State) (g : Guard) (t : TileId) (c : Fin 4) (y : Ty) (q : Fin 16) (z : Fin 2) (a b : Src) (xc : Fin 32) (n1 : BitVec 3),
  let A : Agent := .ctx t c
  let lane : Nat → BitVec 32 := fun j => (s.V 1 a).extractLsb' (32 * j) 32
  let active : Nat → Bool := fun j => !(lane j).getLsbD 31
  let hdl : Nat → Handle := fun j => s.issue.ctx.bank.h[((lane j).extractLsb' 27 4).toFin]
  let live : List Nat := (List.range 64).filter fun j => active j && (hdl j).valid
  let before : Nat → Nat := fun j => (live.filter fun i => i < j).length
  let missed : Fin 16 → Bool := fun k =>
    (List.range 64).any fun j => active j && (lane j).extractLsb' 27 4 == BitVec.ofFin k && !(hdl j).valid
  let r : Ring := s.issue.ctx.bank.q[q]
  let e : Nat := if r.esz.toNat ≤ 8 then 2 ^ (8 - r.esz.toNat) else 1
  s.issue.agent = A →
  (Performs (.mgath g y q a b xc) s → ∃ (x : Access) (mask : Word),
    x.id = (s.tile t).serial ∧ x.ctx = c ∧ x.owner = (s.tile t).mem.bnd.owner ∧ x.unb = false ∧ x.admitted = true ∧
    x.landed = false ∧ x.err = false ∧ x.data = List.replicate (64 * y.width) 0 ∧
    x.kind = .gather y.width ((List.range 64).map fun j =>
      if active j = true ∧ (hdl j).valid = true then some (y.width * before j) else none) ∧
    x.pieces = live.map (fun j =>
      (⟨(hdl j).frame.toNat * 2 ^ 16 + (((lane j).extractLsb' 0 27).toNat + (s.X 2 b).toNat), y.width * before j, y.width, false,
        (hdl j).nalloc, Fin.ofNat 8 (hdl j).home.toNat, (hdl j).home == 8⟩ : Piece)) ∧
    x.dest = .ring q (s.ctx A).bank.q[q].res e ∧
    (∀ j < 64, mask.getLsbD j = (active j && !(hdl j).valid)) ∧
    exec (.mgath g y q a b xc) s = .next ((((s.modTile t fun T => { T with accs := T.accs ++ [x], serial := T.serial + 1 }).modCtx A
      fun k => { k with bank := { k.bank with
        q := k.bank.q.set q { k.bank.q[q] with res := k.bank.q[q].res + BitVec.ofNat 32 e },
        h := Vector.ofFn fun i => if missed i then { k.bank.h[i] with miss := true } else k.bank.h[i] } })).result
      (.x xc mask) 0 .scalar 1)) ∧
  (Performs (.sqpush g z a n1) s →
    exec (.sqpush g z a n1) s = .next (s.modCtx A fun k =>
      let new : List ScaleEntry := (List.range (n1.toNat + 1)).map fun j => .landed ((s.V 1 a).extractLsb' (256 * j) 256)
      { k with bank := if z = 1 then { k.bank with sqb := k.bank.sqb ++ new } else { k.bank with sqa := k.bank.sqa ++ new } }))

/-- When its bundle has issued and its guard is true, through a valid handle, MST and MSTV answer a next state in
which one access holding the W low bytes of X(d), or the 256 bytes of V(d), has entered the tile's list for the
handle's frame × 2^16 + offset; AMO and AMOCAS one in which an atomic of W bytes at offset X(a), with its operand or
its expected and new value cut to W bytes, has entered and one entry of ring qd is claimed; DISC one with a part of
128 bytes for each line of the range, and of length 0 one in which nothing has changed. A store or atomic through an
unbacked handle has been admitted before its bundle issued (log 76); where its home slice refused it, none enters, no
entry is claimed, and the access is what trap.keep holds, so that reservation exceeded follows the bundle; beside an
ERET, or in a bundle in which nothing was refused, trap.keep stays (log 75). Nothing else is changed.
(08_access_and_copy.md, R185, R187, R189, R193, R324) -/
def Obligations.StoresAndAtomics : Prop :=
  ∀ (s : State) (g : Guard) (t : TileId) (c : Fin 4) (y : Ty) (o : AmoOp) (ord : MemOrd) (sc : Scope) (q h : Fin 16)
    (d a b e : Src) (disp : BitVec 31),
  let A : Agent := .ctx t c
  let hd : Handle := s.issue.ctx.bank.h[h]
  let off : Int := (s.X 1 a).toNat + disp.toInt
  let entered : Access → State := fun x => s.modTile t fun T => { T with accs := T.accs ++ [x], serial := T.serial + 1 }
  let refused : Option Kept := (s.ctx A).tail.bind fun tl => tl.refused
  let keeps : Instr → Prop := fun i => ∀ k, refused = some k → exec i s =
    .next (if ((s.ctx A).tail.any fun tl => tl.eret = .none) = true
      then s.modCtx A fun x => { x with trap := { x.trap with keep := some k } } else s)
  let claimed : State → State := fun u => u.modCtx A fun k =>
    { k with bank := { k.bank with q := k.bank.q.set q { k.bank.q[q] with res := k.bank.q[q].res + 1 } } }
  let mine : Access → Nat → Prop := fun x o =>
    x.id = (s.tile t).serial ∧ x.ctx = c ∧ x.hdl = h ∧ x.off = o ∧ x.landed = false ∧ x.unb = hd.unb ∧ x.admitted = true
  let atomic : Access → Prop := fun x =>
    mine x (s.X 1 a).toNat ∧ Piece.Cover x.pieces (hd.frame.toNat * 2 ^ 16 + (s.X 1 a).toNat) y.width ∧ x.ord = ord ∧ x.sc = sc ∧
    x.dest = .ring q (s.ctx A).bank.q[q].res 1
  s.issue.agent = A → hd.valid = true →
  (Performs (.mst g y d a h disp) s → keeps (.mst g y d a h disp)) ∧
  (Performs (.mstv g d a h disp) s → keeps (.mstv g d a h disp)) ∧
  (Performs (.amo g y q a b o ord sc h) s → keeps (.amo g y q a b o ord sc h)) ∧
  (Performs (.amocas g y q a b e ord sc h) s → keeps (.amocas g y q a b e ord sc h)) ∧
  (Performs (.mst g y d a h disp) s → refused = none → 0 ≤ off → ∃ x, mine x off.toNat ∧ x.kind = .store ∧
    x.data = (List.range y.width).map (fun j => (s.X 0 d).extractLsb' (8 * j) 8) ∧
    Piece.Cover x.pieces (hd.frame.toNat * 2 ^ 16 + off.toNat) y.width ∧
    exec (.mst g y d a h disp) s = .next (entered x)) ∧
  (Performs (.mstv g d a h disp) s → refused = none → 0 ≤ off → ∃ x, mine x off.toNat ∧ x.kind = .store ∧
    x.data = (List.range 256).map (fun j => (s.V 0 d).extractLsb' (8 * j) 8) ∧
    Piece.Cover x.pieces (hd.frame.toNat * 2 ^ 16 + off.toNat) 256 ∧
    exec (.mstv g d a h disp) s = .next (entered x)) ∧
  (Performs (.amo g y q a b o ord sc h) s → refused = none → ∃ x, atomic x ∧ x.kind = .atomic y.width o ((s.X 2 b).setWidth y.bits).toNat ∧
    exec (.amo g y q a b o ord sc h) s = .next (claimed (entered x))) ∧
  (Performs (.amocas g y q a b e ord sc h) s → refused = none → ∃ x, atomic x ∧
    x.kind = .cas y.width ((s.X 2 b).setWidth y.bits).toNat ((s.X 3 e).setWidth y.bits).toNat ∧
    exec (.amocas g y q a b e ord sc h) s = .next (claimed (entered x))) ∧
  (Performs (.disc g a b h) s → s.X 2 b = 0 → exec (.disc g a b h) s = .next s) ∧
  (Performs (.disc g a b h) s → s.X 2 b ≠ 0 → ∃ x, x.id = (s.tile t).serial ∧ x.ctx = c ∧ x.kind = .discard ∧ x.dest = .none ∧ x.admitted = true ∧
    x.pieces.map (fun p => (p.pa, p.n)) = (List.range ((s.X 2 b).toNat / 128)).map (fun j =>
      (hd.frame.toNat * 2 ^ 16 + (s.X 1 a).toNat + 128 * j, 128)) ∧
    exec (.disc g a b h) s = .next (entered x))

/-- When a drover thread's bundle has issued and the guard is true, for addresses X(a) + SExt(disp, 31) onward: where
no byte lies in a window of the device's registers, MST answers a next state in which the W low bytes of X(d) stand
there in the thread's memory, every other byte of it as before; where the bytes lie in one 8-byte word of a window,
the write of that word, its bytes not stored being free (log 94): of the physical function's registers, as the next
step; of the boundary register of a tile, at once, in the fields of R60; and of a domain's slice set, hash masks or
ctl, whose busy is read only, at once. A hold that is set notes the requests of the domain made before it (R73; log
103), and one that is cleared, when no domain is held any more, lets the curtains that waited for it begin (R329). MLD
answers one in which the W bytes there, of drover memory or of the words that those registers read, extended as R176
says, are in flight to xd and land within the 200 cycles of R190 (in the 200th, log 12). Where the windows lie and
what drover memory holds at reset are the model's own (logs 9 and 94). Nothing else is changed.
(06_scalar_and_control.md, 08_access_and_copy.md, R60, R69, R73, R190, R106, R176, R128, R329) -/
def Obligations.DroverAccesses : Prop :=
  ∀ (s : State) (g : Guard) (n : SlotId) (y : Ty) (u : Bool) (d : Fin 32) (xs a : Src) (h : Fin 16) (disp : BitVec 31),
  let base : Nat := (s.X 1 a + disp.signExtend 64).toNat
  let W : Nat := y.width
  let start : BitVec 64 → Nat := fun b => b.toNat / 8 * 8
  let within : BitVec 64 → Nat → Nat → Prop := fun b len p => start b ≤ p ∧ p < start b + len
  let host : Nat → Prop := within Config.droverRegs (2 ^ 26)
  let bnd : Nat → Prop := fun p => ¬ host p ∧ within Config.droverBnds (8 * 384) p
  let dom : Nat → Prop := fun p => ¬ host p ∧ ¬ bnd p ∧ within Config.droverDoms 0x200 p
  let outside : Nat → Prop := fun p => ¬ host p ∧ ¬ bnd p ∧ ¬ dom p
  let tile : Nat → TileId := fun p => Fin.ofNat 384 ((p - start Config.droverBnds) / 8)
  let domain : Nat → Fin 8 := fun p => Fin.ofNat 8 ((p - start Config.droverDoms) / 0x40)
  let reg : Nat → Nat := fun p => (p - start Config.droverDoms) % 0x40 / 8
  let bound : Word → Boundary → Prop := fun w B => B.valid = w.getLsbD 63 ∧ B.owner = w.extractLsb' 55 8 ∧ B.ocol = w.extractLsb' 50 5 ∧
    B.orow = w.extractLsb' 46 4 ∧ B.cols = w.extractLsb' 41 5 ∧ B.rows = w.extractLsb' 36 5 ∧ B.gate = w.extractLsb' 32 4
  let controls : Word → Domain → Nat → Prop := fun w D r =>
    (r = 0 → w = D.set) ∧ (∀ k : Fin 6, r = k.val + 1 → w.setWidth 32 = D.hm[k]) ∧
    (r = 7 → w.getLsbD 0 = D.hold ∧ w.getLsbD 1 = D.gen)
  s.issue.agent = .drover n → Sparse.wf 0 (s.drover n).mem = true →
  (Performs (.mst g y xs a h disp) s →
    ((∀ j < W, outside (base + j)) →
      ∃ m, exec (.mst g y xs a h disp) s = .next (s.modDrover n fun k => { k with mem := m }) ∧
      ∀ p, Sparse.get 0 m p =
        if base ≤ p ∧ p < base + W then (s.X 0 xs).extractLsb' (8 * (p - base)) 8 else Sparse.get 0 (s.drover n).mem p) ∧
    (base % 8 + W ≤ 8 → ¬ outside base → ∃ w : Word,
      (∀ j < 8, w.extractLsb' (8 * j) 8 =
        if base % 8 ≤ j ∧ j < base % 8 + W then (s.X 0 xs).extractLsb' (8 * (j - base % 8)) 8
        else (Config.freeWord s.fresh).extractLsb' (8 * j) 8) ∧
      (host base → exec (.mst g y xs a h disp) s =
        .next { s with fresh := s.fresh + 1, agenda := .registerWrite 0 (base / 8 * 8 - start Config.droverRegs) w :: s.agenda }) ∧
      (bnd base → ∃ B, bound w B ∧ exec (.mst g y xs a h disp) s =
        .next (State.modMem { s with fresh := s.fresh + 1 } (tile base) fun m => { m with bnd := B })) ∧
      (dom base → ∃ D : Domain,
        let O : Domain := s.mem.doms[domain base]
        let hold : Bool := if reg base = 7 then w.getLsbD 0 else O.hold
        exec (.mst g y xs a h disp) s = .next (State.setHold { s with
          fresh := s.fresh + 1, mem := { s.mem with doms := s.mem.doms.set (domain base) D } } (domain base) hold) ∧
        controls w { D with hold := hold } (reg base) ∧
        (reg base ≠ 0 → D.set = O.set) ∧ (∀ k : Fin 6, reg base ≠ k.val + 1 → D.hm[k] = O.hm[k]) ∧
        (reg base ≠ 7 → D.gen = O.gen) ∧ D = { O with set := D.set, hm := D.hm, gen := D.gen }))) ∧
  (∀ e : Fin 8,
    let O : Domain := s.mem.doms[e]
    let free : Vector Domain 8 := s.mem.doms.set e { O with hold := false, before := [] }
    (∀ v, O.hold = v → s.setHold e v = s) ∧
    (O.hold = false → s.setHold e true = { s with mem := { s.mem with doms := s.mem.doms.set e { O with hold := true, before := s.requests e } } }) ∧
    (O.hold = true → (∃ k : Fin 8, (free[k]).hold = true) → s.setHold e false = { s with mem := { s.mem with doms := free } }) ∧
    (O.hold = true → (∀ k : Fin 8, (free[k]).hold = false) → s.setHold e false = { s with
      mem := { s.mem with doms := free },
      agenda := ((s.pads.filter fun p => p.due).map fun p => .curtain p.pid) ++ s.agenda,
      pads := s.pads.map fun p => { p with due := false } })) ∧
  (Performs (.mld g y (.xreg d) a h u disp) s → ∃ (v : BitVec (8 * y.width)) (word : Nat → Word),
    (∀ j < W, v.extractLsb' (8 * j) 8 =
      let p := base + j
      if outside p then Sparse.get 0 (s.drover n).mem p else (word (p / 8 * 8)).extractLsb' (8 * (p % 8)) 8) ∧
    (∀ j < W,
      let p := (base + j) / 8 * 8
      (host p → word p = s.readReg 0 (p - start Config.droverRegs)) ∧
      (bnd p → bound (word p) (s.tile (tile p)).mem.bnd ∧ (word p).extractLsb' 0 32 = 0) ∧
      (dom p → controls (word p) (s.mem.doms[domain p]) (reg p) ∧ (reg p = 7 → (word p).getLsbD 2 = (s.mem.doms[domain p]).busy))) ∧
    exec (.mld g y (.xreg d) a h u disp) s =
      .next (s.result (.x d (if u = true ∨ y.isInt = false then v.setWidth 64 else v.signExtend 64)) 0 .scalar 200))

/-- While a domain is held for a change, what an access asks of it that was made since is parked, and its step changes
nothing (R73; log 103). Else, when the order of R284 and R288 lets a part of an access be performed, with every other
open part of it in the same aligned 8-byte unit, or in host memory in the same 64-byte half (log 104), its step first
lets the owner's owed write-backs leave where the access is a release at system scope, and another owner's halves of
the line (R72, R287). Then, if it touches a half of host memory that R345 has it ask for (a write asks for ownership,
a read for the half, of a nalloc page for nothing, log 78), and the slice does not hold so, the host is asked, once
for a half and kind, and the access waits. Else the parts are performed one after another in one next state: a load's
data holds the bytes memory holds there, with an error where they carry one, a store's bytes are written, an atomic
writes the result of its operation and its data holds the old bytes, an exchange writes the new value exactly where
the old one was the expected one and else the old one again, a DISC's line is dropped (of a line of a late frame it is
open whether it still stood in the cache, log 79, and where it did not the host is back-invalidated, R293), a remote
counter's value is read; a written line that was dropped since it was admitted is allocated again, and without room
not written (log 80). A load or atomic into a ring whose parts are all performed lands: an MLD's W bytes sign- or
zero-extended to 8, an old value zero-extended to 8, an MGATH's elements zero-extended to 4 bytes a lane and zero in
the other lanes, 256 bytes of an MLDV, in its claimed entries, whose errors it sets; no other scratchpad byte changes,
and prod rises over its entries unless an earlier access of that ring has not landed. A remote CNTRD lands in its
register. A scale load without error lands 32 bytes in each entry it claimed. (R72, R165, R185, R187, R188, R191,
R193, R205, R285, R293, R345, R346) -/
def Obligations.RemoteAccessesAreServed : Prop :=
  ∀ (s : State) (t : TileId) (id k : Nat) (a : Access) (p : Piece),
  let T : Tile := s.tile t
  let stands : Access → Tile → Tile := fun b U => { U with
    accs := (U.accs.map fun c => if c.id = b.id then b else c).filter fun c => !(c.dest == .none && c.admitted && c.pieces.all (·.done)) }
  let writes : State → Access → Piece → List Byte → State := fun u b x l =>
    match (if u.mem.unbacked x.pa then u.mem.allocate b.owner x.dom [x.pa / 128] else some u.mem) with
    | none => u
    | some m => (State.writeMem { u with mem := m } x.pa l x.nalloc).modMemSys fun m => m.dirty x.pa x.nalloc
  let one : State × Access → Nat → State × Access → Prop := fun r j r' => ∀ x, r.2.pieces[j]? = some x →
    let u := r.1
    let old : BitVec (8 * x.n) := BitVec.ofNat (8 * x.n) (ofBytes ((List.range x.n).map fun i => u.mem.read (x.pa + i)))
    let bytes : BitVec (8 * x.n) → List Byte := fun v => (List.range x.n).map fun i => v.extractLsb' (8 * i) 8
    let after : List Byte → Bool → Access := fun l e =>
      { r.2 with data := l, err := r.2.err || e && u.mem.badIn x.pa x.n, pieces := setAt r.2.pieces j fun y => { y with done := true } }
    match r.2.kind with
    | .store => r' = (writes u r.2 x ((r.2.data.drop x.at_).take x.n), after r.2.data false)
    | .atomic w o z => w = x.n → z < 2 ^ (8 * x.n) →
      let y : BitVec (8 * x.n) := BitVec.ofNat (8 * x.n) z
      let new : BitVec (8 * x.n) := match o with
        | .add => old + y | .and => old &&& y | .or => old ||| y | .xor => old ^^^ y
        | .min => if old.sle y then old else y | .max => if y.sle old then old else y
        | .minu => if old ≤ y then old else y | .maxu => if y ≤ old then old else y | .swap => y
      r' = (writes u r.2 x (bytes new), after (bytes old) true)
    | .cas w e z => w = x.n → e < 2 ^ (8 * x.n) →
      r' = (writes u r.2 x (bytes (if old.toNat = e then BitVec.ofNat (8 * x.n) z else old)), after (bytes old) true)
    | .discard =>
      (u.mem.eff x.pa = x.pa → r' = ({ u with mem := u.mem.drop (x.pa / 128) }, after r.2.data false)) ∧
      (u.mem.eff x.pa ≠ x.pa →
        let line : Nat := u.mem.eff x.pa / 128
        let back : Bool := (Config.freeWord u.fresh).getLsbD 0
        let v : State := { u with fresh := u.fresh + 1 }
        let v : State := if back = false ∧ u.mem.behind.any (fun b => b.1 == line) = true then v.withMem (v.mem.backInv x.pa) else v
        r' = ({ v with mem := v.mem.uncover line back }, after r.2.data false))
    | .counterRead t' n _ => ∀ h : t' < 384,
      r' = (u, after ((List.range 8).map fun i => ((u.tile ⟨t', h⟩).mem.counter n).extractLsb' (8 * i) 8) false)
    | _ => ∃ l : List Byte, r' = (u, after l true) ∧ l.length = r.2.data.length ∧
      ∀ i < l.length, l[i]? = if x.at_ ≤ i ∧ i < x.at_ + x.n then some (u.mem.read (x.pa + (i - x.at_))) else r.2.data[i]?
  let touches : Bool := match a.kind with | .counterRead _ _ _ => false | .discard => false | _ => true
  let size : Nat := if touches = true ∧ s.mem.place p.pa = .host then 64 else 8
  let unit : List Nat := (List.range a.pieces.length).filter fun j =>
    match a.pieces[j]? with | some x => !x.done && x.pa / size == p.pa / size | none => false
  let write : Bool := match a.kind with | .store => true | .atomic _ _ _ => true | .cas _ _ _ => true | _ => false
  let release : Bool := write && a.kind != .store && (a.ord == .rel || a.ord == .acqrel) && a.sc == .system
  let u1 : State := if release then s.writeBacks a.owner else s
  let u2 : State := if touches then u1.withMem (u1.mem.evictOthers (u1.mem.eff p.pa) a.owner) else u1
  let at_ : Nat := u2.mem.eff p.pa
  let need : Option CxlReq :=
    if touches = true ∧ u2.mem.place at_ = .host then
      (match u2.mem.half at_ with
       | none => if write then some .rdOwn else if p.nalloc then none else some .rdShared
       | some x => if write = true ∧ x.st = .shared then some .rdOwn else none)
    else none
  let memory : Bool := match a.kind with | .counterRead _ _ _ => false | _ => true
  let parked : Bool := memory && !p.first && (s.mem.doms[p.dom]).hold && !(s.mem.doms[p.dom]).before.contains (t, id)
  let step : Instr := .remoteAccessPerformed t id k
  let me : HostWait := .access t id k
  let C : Ctx := T.ctx a.ctx
  T.accs.find? (fun b => b.id = id) = some a →
  (a.pieces[k]? = some p → parked = true → exec step s = .next s) ∧
  (a.pieces[k]? = some p → p.done = false → a.admitted = true → parked = false →
    (∀ j ∈ unit, ∀ x, a.pieces[j]? = some x → T.mayPerform a x = true) →
    (need = none → ∃ r : Nat → State × Access, r 0 = (u2, a) ∧
      (∀ i j, unit[i]? = some j → one (r i) j (r (i + 1))) ∧
      exec step s = .next ((r unit.length).1.modTile t (stands (r unit.length).2))) ∧
    (∀ q, need = some q → (∀ x ∈ u2.mem.hreqs, x.half = at_ / 64 → x.kind ≠ q) →
      exec step s = .next { u2 with
        mem := { u2.mem with hreqs := u2.mem.hreqs ++ [⟨at_ / 64, q, a.owner, p.dom, [me], p.nalloc⟩] }, out := u2.out ++ [.cxl q (at_ / 64) []] }) ∧
    (∀ q, need = some q → (∃ x ∈ u2.mem.hreqs, x.half = at_ / 64 ∧ x.kind = q) →
      exec step s = .next { u2 with mem := { u2.mem with hreqs := u2.mem.hreqs.map fun x =>
        if x.half = at_ / 64 ∧ x.kind = q then
          { x with waiters := if me ∈ x.waiters then x.waiters else x.waiters ++ [me], nalloc := x.nalloc && p.nalloc } else x } })) ∧
  (∀ q first n (L : List Byte), a.dest = .ring q first n → a.landed = false → a.admitted = true → (∀ x ∈ a.pieces, x.done = true) →
    (match a.kind with
      | .load w sign => 1 ≤ w ∧ w ≤ 8 ∧ L.length = 8 ∧ ∀ j < 8, L.getD j 0 =
        if j < w then a.data.getD j 0 else if sign = true ∧ (a.data.getD (w - 1) 0).getLsbD 7 = true then 0xFF else 0
      | .atomic w _ _ => w ≤ 8 ∧ L.length = 8 ∧ ∀ j < 8, L.getD j 0 = if j < w then a.data.getD j 0 else 0
      | .cas w _ _ => w ≤ 8 ∧ L.length = 8 ∧ ∀ j < 8, L.getD j 0 = if j < w then a.data.getD j 0 else 0
      | .gather e m => e ≤ 4 ∧ L.length = 4 * m.length ∧ ∀ j < m.length, ∀ i < 4, L.getD (4 * j + i) 0 =
        match m[j]? with | some (some x) => if i < e then a.data.getD (x + i) 0 else 0 | _ => 0
      | .loadV => L = a.data
      | _ => False) →
    Sparse.wf 0 T.mem.spad = true →
    let r : Ring := C.bank.q[q]
    L.length ≤ 2 ^ r.lsize.toNat * 2 ^ r.esz.toNat → 2 ^ r.lsize.toNat * 2 ^ r.esz.toNat ≤ 2 ^ 20 → r.base.toNat % (2 ^ r.lsize.toNat * 2 ^ r.esz.toNat) = 0 →
    ∃ u, exec (.loadLands t id) s = .next u ∧
      let adr : Nat → Nat := fun j => r.base.toNat + (first.toNat + j / 2 ^ r.esz.toNat) % 2 ^ r.lsize.toNat * 2 ^ r.esz.toNat + j % 2 ^ r.esz.toNat
      let new : Ring := ((u.tile t).ctx a.ctx).bank.q[q]
      (∀ j < L.length, inConst (adr j) = false → inCounters (adr j) = false → Sparse.get 0 (u.tile t).mem.spad (adr j) = L.getD j 0) ∧
      (∀ A, (∀ j < L.length, adr j ≠ A) ∨ inConst A = true ∨ inCounters A = true →
        Sparse.get 0 (u.tile t).mem.spad A = Sparse.get 0 T.mem.spad A) ∧
      (∀ e, e ∈ new.poison ↔ if (e - first).toNat < n then a.err = true else e ∈ r.poison) ∧
      ((∀ b ∈ T.accs, b.id ≠ id → b.ctx = a.ctx → ∀ f m, b.dest ≠ .ring q f m) → (∀ b ∈ T.accs, b.id = id → b = a) →
        new.prod = r.prod + BitVec.ofNat 32 n) ∧
      ((∃ (b : Access) (l m x : List Access) (f : BitVec 32 × Nat), T.accs = l ++ b :: m ++ a :: x ∧ b.ctx = a.ctx ∧ b.id ≠ id ∧ b.landed = false ∧ b.dest = .ring q f.1 f.2 ∧
          ∀ c ∈ l, ∀ g : BitVec 32 × Nat, c.dest ≠ .ring q g.1 g.2) → new.prod = r.prod)) ∧
  (∀ d, a.dest = .reg d → a.landed = false → a.admitted = true → (∀ x ∈ a.pieces, x.done = true) → a.data.length = 8 →
    ∃ (v : Word) (u : State), exec (.loadLands t id) s = .next u ∧ (∀ j < 8, v.extractLsb' (8 * j) 8 = a.data.getD j 0) ∧
      u = s.modTile t fun U => { U with
        accs := U.accs.filter fun b => b.id != id
        ctxs := U.ctxs.set a.ctx { C with
          bank := if d = 0 then C.bank else { C.bank with x := C.bank.x.set d v }
          flight := C.flight.filter fun f => f.access != some id } }) ∧
  (∀ b n, a.dest = .scale b n → a.err = false → (∀ x ∈ a.pieces, x.done = true) → ∃ u, exec (.scaleLoadLands t id) s = .next u ∧
    ∀ (e : Nat) (j : Nat), (if b then C.bank.sqb else C.bank.sqa)[e]? = some (.claimed id j) → ∃ v : BitVec 256,
      (if b then ((u.tile t).ctx a.ctx).bank.sqb else ((u.tile t).ctx a.ctx).bank.sqa)[e]? = some (.landed v) ∧
      ∀ i < 32, 32 * j + i < a.data.length → v.extractLsb' (8 * i) 8 = a.data.getD (32 * j + i) 0)

/-- When a walk is among the four in progress, its landing answers a next state with the walk gone and its handle
holding the leaf's rights, owner, frame and kept page (R166) and, of a first-touch leaf, the home slice of the region
of the address walked, which the nearest slice claims if none has (R70; for a large page the region walked is the
model's reading, log 37), or clear where the walk ends at an absent entry, with a system fault 0x20 or 0x21 as well
where it ends in a format or owner fault, recorded once the context's results in flight have landed (R129). An
invalidation clears valid in exactly the handles of that owner and page. When every earlier access lets it be decided
and no hold parks it, the store or atomic of a bundle that asks, before the bundle issues (log 76), is decided line by
line at the home slices of its absent lines: a line that its slice has no room for, with what the owner's lines there
and the lines admitted for accesses not yet decided take, refuses the access, and what was admitted for it is
returned; a line with room is admitted, and with the last one the access is granted and its lines are allocated. One
whose handle has lost valid meanwhile is let on to its check; while an earlier access forbids it, nothing is decided.
The kept access of an ERET (R324; log 75) is decided in the same way, and refused again it is no access any more, its
ring claim is withdrawn, what is kept stays, and its ERET goes on to raise the trap again. (03_placed.md, 07_fed.md,
08_access_and_copy.md, R63, R70, R77, R129, R166, R167, R183, R189, R324) -/
def Obligations.WalksAndAllocations : Prop :=
  ∀ (s : State) (t : TileId) (c : Fin 4) (h : Fin 16) (w : Walk) (id : Nat) (a : Access) (q : Ask),
  let T : Tile := s.tile t
  let o : OwnerTag := T.mem.bnd.owner
  let gone : State := s.modTile t fun U => { U with walks := U.walks.erase w }
  let landed : State → Handle → State := fun u x =>
    u.modTile t fun U => U.modCtx c fun k => { k with bank := { k.bank with h := k.bank.h.set h x } }
  let clear : Handle := ⟨false, false, false, false, false, false, false, 0, 0, 0, 0, 0, false⟩
  let dom : Access → Fin 8 := fun b => (b.pieces.head?.map (·.dom)).getD 0
  let live : List Claim := s.mem.claims.filter fun x =>
    (([0, 1, 2, 3] : List (Fin 4)).any fun k => match ((s.tile x.tile).ctx k).ask with | some y => y.id == x.id && y.answer.isNone | none => false) ||
    match (s.tile x.tile).accs.find? (fun b => b.id = x.id) with | some b => !b.admitted | none => false
  let mine : List Claim := live.filter fun x => x.tile == t && x.id == id
  let back : MemSys := { s.mem with claims := live.filter fun x => !(x.tile == t && x.id == id) }
  let todo : Access → List Nat := fun b => b.lines.filter fun l =>
    !s.mem.lineIn (l * 128) && s.mem.unbacked (l * 128) && !mine.any fun x => x.line.line == l
  let room : Access → Nat → Bool := fun b l =>
    let home : Nat → Nat := fun l => (s.mem.dom (dom b)).home (l * 128)
    ((s.mem.lines ++ live.map fun x => x.line).filter fun x => x.owner = b.owner && x.dom = dom b && home x.line == home l).length <
      s.mem.quota b.owner (dom b)
  let given : Access → List Nat → State := fun b new => { s with mem := { back with
    lines := s.mem.lines ++ ((mine.map fun x => x.line) ++ new.map fun l => (⟨l, b.owner, dom b⟩ : UnbLine)).filter fun (x : UnbLine) =>
      !s.mem.lineIn (x.line * 128) } }
  let claimed : Access → Nat → State := fun b l =>
    { s with mem := { s.mem with claims := live ++ [⟨t, id, ⟨l, b.owner, dom b⟩⟩] } }
  let decidable : Access → Bool := fun b => b.pieces.all fun p => T.mayPerform b p &&
    !(b.kind.toMemory && !p.first && (s.mem.doms[p.dom]).hold && !(s.mem.doms[p.dom]).before.contains (t, b.id))
  let asks : Fin 4 → Bool := fun c => match (T.ctx c).ask with | some x => x.id == id && x.answer.isNone | none => false
  let named : OwnerTag → Nat → Bool → Handle → Bool := fun own va large x =>
    x.owner == own && (if large || x.large then x.page.toNat / 2 ^ 13 == va / 2 ^ 29 else x.page.toNat == va / 2 ^ 16)
  ((T.walks.take 4).find? (fun x => x.ctx = c && x.h = h) = some w →
    (∀ e large p, s.mem.walk o w.va = .leaf e large p → ∃ m x, exec (.walkLands t c h) s = .next (landed m x) ∧
      x.valid = true ∧ x.miss = false ∧ x.pending = false ∧ x.large = large ∧ x.read = e.testBit 2 ∧ x.write = e.testBit 3 ∧
      x.nalloc = e.testBit 6 ∧ x.unb = e.testBit 7 ∧ x.owner.toNat = e / 2 ^ 56 % 2 ^ 8 ∧ x.home.toNat = e / 2 ^ 52 % 2 ^ 4 ∧
      x.frame.toNat = e / 2 ^ 16 % 2 ^ 32 ∧ (w.va < 2 ^ 55 → large = false → x.page.toNat = w.va / 2 ^ 16) ∧
      (x.home.toNat ≠ 8 → x.slice = 0 ∧ m = gone) ∧
      (x.home.toNat = 8 →
        let region : Nat := s.mem.rgn.toNat + (x.frame.toNat * 2 ^ 16 + w.va % (if large then 2 ^ 29 else 2 ^ 16)) / 2 ^ 16
        ((s.mem.read region).getLsbD 7 = true → x.slice.toNat = (s.mem.read region).toNat % 64 ∧ m = gone) ∧
        ((s.mem.read region).getLsbD 7 = false → m = gone.writeMem region [BitVec.ofNat 8 (128 + x.slice.toNat)] ∧
          ∀ k < 64, sliceHops t x.slice.toNat ≤ sliceHops t k ∧
            (sliceHops t k = sliceHops t x.slice.toNat → x.slice.toNat ≤ k)))) ∧
    (s.mem.walk o w.va = .absent → exec (.walkLands t c h) s = .next (landed gone clear)) ∧
    (s.mem.walk o w.va = .format ∨ s.mem.walk o w.va = .owner → ∃ u, exec (.walkLands t c h) s = .next u ∧
      let code : Nat := if s.mem.walk o w.va = .format then 0x20 else 0x21
      ((T.ctx c).flight = [] → ∃ f, u.faults = s.faults ++ [f] ∧ f.code = code ∧ f.ctx = some c) ∧
      ((T.ctx c).flight ≠ [] → u.faults = s.faults ∧ ∃ i j, ((u.tile t).ctx c).fault = some (code, i, j)) ∧
      ((u.tile t).ctx c).bank.h[h] = clear ∧ ((u.tile t).ctx c).sel = .stopped ∧ u.mem = s.mem)) ∧
  (∀ (own : OwnerTag) (va : BitVec 64) (large : Bool), ∃ u, exec (.translationInvalidation own va large) s = .next u ∧ u.mem = s.mem ∧
    ∀ (t' : TileId) (c' : Fin 4) (k : Fin 16),
      let x : Handle := ((s.tile t').ctx c').bank.h[k]
      ((u.tile t').ctx c').bank.h[k] =
        if named own va.toNat large x = true
        then { x with valid := false } else x) ∧
  ((T.ctx c).ask = some q → q.id = id → q.answer = none → (∀ k, asks k = true → k = c) →
    let b : Access := { q.kept.access T c with id := id }
    let answer : Bool → State → State := fun v u =>
      u.modTile t fun U => U.modCtx c fun k => { k with ask := some { q with answer := some v } }
    exec (.allocationDecision t id) s = .next (
      if (T.ctx c).bank.h[q.kept.h].valid = false then answer true s
      else if decidable b = false then s
      else
        match todo b with
        | [] => answer true (given b [])
        | [l] => if room b l = true then answer true (given b [l]) else answer false { s with mem := back }
        | l :: _ => if room b l = true then claimed b l else answer false { s with mem := back })) ∧
  ((∀ k, asks k = false) → T.accs.find? (fun b => b.id = id) = some a → a.admitted = false → decidable a = true →
    (∀ new, todo a = new → new.length ≤ 1 → (∀ l ∈ new, room a l = true) →
      exec (.allocationDecision t id) s = .next ((given a new).modTile t fun U =>
        { U with accs := U.accs.map fun b => if b.id = id then { a with admitted := true } else b })) ∧
    (∀ l r, todo a = l :: r → r ≠ [] → room a l = true → exec (.allocationDecision t id) s = .next (claimed a l)) ∧
    (∀ l r, todo a = l :: r → room a l = false → ∃ u, exec (.allocationDecision t id) s = .next u ∧ u.mem = back ∧
      (u.tile t).accs = T.accs.filter (fun b => b.id != id) ∧
      let C : Ctx := T.ctx a.ctx
      let C' : Ctx := (u.tile t).ctx a.ctx
      C'.trap.keep = C.trap.keep ∧
      C'.tail = C.tail.map (fun tl => if tl.eret = .sent id then { tl with eret := .again } else tl) ∧
      (∀ r f n, a.dest = .ring r f n → C'.bank.q[r].res = C.bank.q[r].res - BitVec.ofNat 32 n)))

/-- The host's response to a waiting request answers a next state. Where the half was not held, it comes into a way of
its line's set in the cache partition, unless every access that waits is to a nalloc page (R72) or every way of the
set is withdrawn (R343): where the set is full, a line of it leaves first, and which is open; the set that a line goes
to is the model's (log 41). The half is then held: with the bytes of host memory, shared after RdShared and exclusive
after the others, where it was not; where it was shared, with its bytes and the new state; where it was the device's
own, as it was. The request is gone, and what waited for it is performed against the response, each as its own event
performs it where no domain is held, before anything else reaches the half (R346); a half that came into no way then
leaves again (log 78); a domain change that waited for the last request of its domain comes next (R73). A half leaves
the cache with DirtyEvict, its bytes then standing in host memory, CleanEvict or CleanEvictNoData as R345 has it.
SnpData leaves the half shared, SnpInv drops it, its request being sent again if it is asked for, and SnpCur leaves it
as it is; each answers with its data exactly when it was modified, and the first two then put it into host memory; a
half not held is answered so. A host read over CXL.mem answers the bytes of device memory and marks the line as held
by the host, or answers an error; a host write puts its bytes there; before the device is ready neither is answered.
The host's own access to its memory first takes SnpData, or SnpInv if it writes, of a half that is held, as log 49
reads R293 and R345. (03_placed.md, 13_synchronised.md, 17_program_handoff.md, 22_the_device.md, R72, R73, R74, R293,
R343, R345, R346, R361) -/
def Obligations.HostLinesAndSnoops : Prop :=
  ∀ (s : State) (hpa : Nat) (own : Bool) (q : HostReq) (x : HostHalf),
  let h : Nat := (2 ^ 47 + hpa) / 64
  let held : List HostHalf → Option HostHalf := fun l => l.find? fun y => y.half = h
  let others : List HostHalf → List HostHalf := fun l => l.filter fun y => y.half != h
  let st : Mesi := if own then .exclusive else .shared
  let answer : OutMsg := .snoop h (if x.st = .modified then some x.data else none)
  let again : List OutMsg := (s.mem.hreqs.filter fun r => r.half == h).map fun r => .cxl r.kind h []
  let put : State → Prop := fun u => ∀ p, Sparse.get 0 u.mem.bytes p =
    if x.st = .modified ∧ p / 64 = h then x.data.getD (p % 64) 0 else Sparse.get 0 s.mem.bytes p
  let leaves : MemSys → HostHalf → MemSys × List OutMsg := fun m y =>
    let rest : List HostHalf := m.halves.filter fun z => z.half != y.half
    match y.st with
    | .modified => ({ m with
        halves := rest, bytes := Sparse.puts 0 m.bytes (((List.range 64).map fun j => y.half * 64 + j).zip y.data) }, [.cxl .dirtyEvict y.half y.data])
    | .exclusive => ({ m with halves := rest }, [.cxl .cleanEvict y.half []])
    | .shared => ({ m with halves := rest }, [.cxl .cleanEvictNoData y.half []])
  let home : Nat := (s.mem.dom q.dom).home (h * 64)
  let ways : Nat := (if s.mem.mode = 0 then 8 else if s.mem.mode = 3 then 12 else 4) -
    (s.mem.lost.filter fun x => x == (home, Config.cacheSet (h * 64 / 128))).length
  let was : Bool := (held s.mem.halves).isSome
  let takes : Bool := !q.nalloc && 0 < ways
  let same : HostHalf → Bool := fun y => (s.mem.dom y.dom).home (y.half * 64) == home &&
    Config.cacheSet (y.half / 2) == Config.cacheSet (h * 64 / 128)
  let set : List Nat := ((s.mem.halves.filter same).map fun y => y.half / 2).eraseDups
  let serves : HostWait → State → State → Prop := fun z u u' =>
    match z with
    | .access t id k => exec (.remoteAccessPerformed t id k) u = .next u'
    | .copy t k => u' = u.performCopy t k true ∧ ((∀ d : Fin 8, (u.mem.doms[d]).hold = false) → exec (.copyPerform t k) u = .next u')
    | .add t k => u' = u.completeCopy t k true ∧ ((∀ d : Fin 8, (u.mem.doms[d]).hold = false) → exec (.copyCompletion t k) u = .next u')
    | .page p r n =>
      match (u.padNet p).passes.findIdx? fun y => y.rank == r && y.serial == n with
      | some k => u' = u.goOnPass p k true ∧ ((∀ d : Fin 8, (u.mem.doms[d]).hold = false) → exec (.pageLanding p k) u = .next u')
      | none => u' = u
  (s.mem.hreqs.find? (fun r => r.half == h && (r.kind != .rdShared) == own) = some q → ∃ (w : State) (y : HostHalf) (r : Nat → State),
    (was = true ∨ takes = false ∨ h * 64 / 128 ∈ set ∨ set.length < ways → w = s) ∧
    (was = false → takes = true → h * 64 / 128 ∉ set → ways ≤ set.length → ∃ z ∈ set,
      w = ({ s with fresh := s.fresh + 1 }).withMem (s.mem.evictAll (s.mem.halves.filter fun y => y.half / 2 == z))) ∧
    y = (match held w.mem.halves with
      | none => ⟨h, st, (List.range 64).map fun j => Sparse.get 0 w.mem.bytes (h * 64 + j), q.owner, q.dom, false⟩
      | some z => if z.st = .shared then { z with st := st } else z) ∧
    r 0 = { w with mem := { w.mem with hreqs := w.mem.hreqs.filter fun r => r != q, halves := others w.mem.halves ++ [y] } } ∧
    (∀ i z, q.waiters[i]? = some z → serves z (r i) (r (i + 1))) ∧
    let done : State := r q.waiters.length
    let e : State := if was || takes then done else done.withMem (done.mem.evictAll (done.mem.halves.filter fun y => y.half == h))
    let D : Domain := e.mem.dom q.dom
    exec (.hostResponse hpa own) s = .next (
      if (D.busy = true ∨ D.leave ≠ 0) ∧ (∀ z ∈ e.mem.hreqs, z.dom ≠ q.dom) ∧ ∀ z ∈ D.before, z.2 ∉ (e.tile z.1).requests q.dom
      then { e with agenda := .domainChange q.dom :: e.agenda } else e)) ∧
  (∀ (m : MemSys) (y : HostHalf) (l : List HostHalf), m.evictAll [] = (m, []) ∧
    m.evictAll (y :: l) = (((leaves m y).1.evictAll l).1, (leaves m y).2 ++ ((leaves m y).1.evictAll l).2)) ∧
  (held s.mem.halves = some x → x.data.length = 64 → Sparse.wf 0 s.mem.bytes = true →
    (∃ u, exec (.snpData hpa) s = .next u ∧ u.mem.halves = others s.mem.halves ++ [{ x with st := .shared, wb := false }] ∧
      u.out = s.out ++ [answer] ∧ put u ∧ u.tiles = s.tiles) ∧
    (∃ u, exec (.snpInv hpa) s = .next u ∧ u.mem.halves = others s.mem.halves ∧ u.out = s.out ++ answer :: again ∧ put u ∧ u.tiles = s.tiles) ∧
    (∃ u, exec (.snpCur hpa) s = .next u ∧ u.mem.halves = others s.mem.halves ++ [x] ∧ u.out = s.out ++ [answer] ∧
      u.mem.bytes = s.mem.bytes ∧ u.tiles = s.tiles)) ∧
  (held s.mem.halves = none →
    exec (.snpData hpa) s = .next { s with out := s.out ++ [.snoop h none] } ∧
    exec (.snpInv hpa) s = .next { s with out := s.out ++ [.snoop h none] } ∧
    exec (.snpCur hpa) s = .next { s with out := s.out ++ [.snoop h none] }) ∧
  (∀ (pa n : Nat) (v : BitVec 512), 1 ≤ n → pa % 64 + n ≤ 64 →
    let bytes : List Byte := (List.range n).map fun j => v.extractLsb' (8 * j) 8
    let reads : State → List Byte := fun u => (List.range n).map fun j => u.mem.read (pa + j)
    (s.mem.place pa = .device → s.dev.ready = true →
      (∃ u, exec (.hostMemoryAccess pa n none) s = .next u ∧ pa / 128 ∈ u.mem.hostHeld ∧ u.mem.bytes = s.mem.bytes ∧
        u.out = s.out ++ [.memData pa (if s.mem.badIn pa n then none else some (reads s))]) ∧
      exec (.hostMemoryAccess pa n (some v)) s = .next { s with mem := s.mem.write pa bytes }) ∧
    (s.mem.place pa = .device → s.dev.ready = false → ∀ w,
      exec (.hostMemoryAccess pa n w) s = .next { s with out := s.out ++ [.memData pa none] }) ∧
    (s.mem.place pa = .host →
      (s.mem.half pa = none →
        exec (.hostMemoryAccess pa n none) s = .next { s with out := s.out ++ [.memData pa (some (reads s))] } ∧
        exec (.hostMemoryAccess pa n (some v)) s = .next { s with mem := s.mem.write pa bytes }) ∧
      (s.mem.half pa ≠ none →
        (∃ u, exec (.snpData (pa - 2 ^ 47)) s = .next u ∧
          exec (.hostMemoryAccess pa n none) s = .next { u with out := u.out ++ [.memData pa (some (reads u))] }) ∧
        (∃ u, exec (.snpInv (pa - 2 ^ 47)) s = .next u ∧
          exec (.hostMemoryAccess pa n (some v)) s = .next { u with mem := u.mem.write pa bytes }))))

/-- In a memory in canonical form, where cached halves hold 64 bytes and open windows lie on whole 64-byte halves, one
owner's windows starting apart, a write of bytes within one 64-byte half, at an address that may have moved to a late
frame (R80), whose line does not hold the frame owner table, leaves a memory in canonical form. Where no window is
open there, every address that names one of the bytes written reads it, and every other address reads as before,
whatever key the line was written under before (that the rest of the line keeps what it reads as is log 8), in device
memory, in a cached half of a host line, and anywhere else. Where a window is open, a write of a whole element is a
plain store of it (R303): its address reads what REDCLOSE would write for that value alone, a NaN where it is a NaN or
an infinity, and every other address reads as before. (03_placed.md, 13_synchronised.md, 17_program_handoff.md, R62,
R67, R80, R221, R222, R284, R303, R345) -/
def Obligations.WritesAreReadBack : Prop :=
  ∀ (m : MemSys) (pa : Nat) (data : List Byte),
  let at_ : Nat := m.eff pa
  let reads : List Byte → Prop := fun l => ∀ p, (m.write pa data).read p =
    if at_ ≤ m.eff p ∧ m.eff p < at_ + l.length then l.getD (m.eff p - at_) 0 else m.read p
  Memory.wf m = true → Sparse.wf 0 m.tags = true → (∀ h ∈ m.halves, h.data.length = 64) →
  (∀ w ∈ m.wins, w.va % 64 = 0 ∧ w.len % 64 = 0 ∧ Sparse.wf RedElem.zero w.els = true) →
  (m.wins.Pairwise fun w x => w.owner ≠ x.owner ∨ w.va ≠ x.va) →
  at_ % 64 + data.length ≤ 64 → (∀ f < 2 ^ 23, (m.fot.toNat + f) / 128 ≠ at_ / 128) →
  Memory.wf (m.write pa data) = true ∧
  ((∀ w ∈ m.wins, w.offset at_ = none) → reads data) ∧
  (∀ w o, m.window at_ = some (w, o) → data.length = w.esz → o % w.esz = 0 →
    let v : Nat := match redConvert w.bexp (w.fmt.decode (ofBytes data)) with
      | some r => redClose w.fmt w.bexp r.1 false
      | none => w.fmt.qnan
    reads (bytesOf w.esz v))

/-- When its bundle has issued and its guard is true, each of MMA, MMAS, MZERO, MLDP, MSTP, MRPUT, MTRN, MSCL and MEXP
answers a next state in which one entry has entered the matrix queue under the next serial number, holding what R251
says it takes at issue: operands, vector and x sources, window, fp.win, the cell-operation sequence, base, and the
scale entries no earlier entry has reserved, and the ring entries its syllable popped, which RREL may not release
before it completes. MROW puts rows r and r + 1 in flight, MMAX the maximum of each row and lane, MFLG a row of the
lost-significance mask or whether any bit of it is set; MFCLR clears the mask, MOPS sets the sequence and MWIN fp.win.
Nothing else is changed. Outside a curtain the first entry of a queue, not begun and held by no fence, begins in a
next state; the oldest, begun, goes from the queue in one, the tile's memory and its own context's registers and
panels alone being written. (11_matrix.md, R251, R256, R258, R261, R262, R264, R265, R266, R267, R268, R269) -/
def Obligations.MatrixInstructions : Prop :=
  ∀ (s : State) (g : Guard) (t : TileId) (c : Fin 4) (y : Ty) (d e : Fin 4) (a b : MSrc) (m : MSrc) (x z : Src) (xd : Fin 32) (pd : Fin 16)
    (fa fb : MFmt) (kb : BitVec 3) (zr n8 sat u : Bool) (rm : Rm) (w : Fin 8) (imm : BitVec 42) (win : BitVec 3) (es fs : List (BitVec 256)),
  let A : Agent := .ctx t c
  let K : Ctx := s.issue.ctx
  let P : Panel := K.bank.a[e]
  let pops : List (Fin 16 × BitVec 32 × Nat) := (s.issue.pops.filter fun p => p.slot = s.issue.slot).map fun p => (p.q, p.ring.rd, p.k)
  let queued : MWork → State := fun v => s.modTile t fun T =>
    { T with mq := T.mq ++ [⟨T.serial, c, v, none, pops, none⟩], serial := T.serial + 1 }
  let n : Nat := if fa.scaled then kb.toNat + 1 else 0
  let taken : Prop := (s.scaleAvail false).take n = es.map .landed ∧ (s.scaleAvail true).take n = fs.map .landed
  let row : Nat := (s.X 2 x).toNat % 32
  s.issue.agent = A →
  (Performs (.mma g d a b z fa fb kb zr) s → taken → exec (.mma g d a b z fa fb kb zr) s =
    .next (queued (.mma d (s.M 1 a) (s.M 2 b) none fa fb kb.toNat zr K.fp.win.toNat K.ops ((s.X 3 z).setWidth 32).toNat es fs))) ∧
  (Performs (.mmas g d a b m fa fb kb zr n8) s → taken → exec (.mmas g d a b m fa fb kb zr n8) s =
    .next (queued (.mma d (s.M 1 a) (s.M 2 b) (some (s.M 3 m, n8)) fa fb kb.toNat zr K.fp.win.toNat K.ops 0 es fs))) ∧
  (Performs (.mzero g d) s → exec (.mzero g d) s = .next (queued (.zero d))) ∧
  (Performs (.mldp g y d x w z u) s → exec (.mldp g y d x w z u) s =
    .next (queued (.load d y u K.bank.w[w] (s.X 1 x).toNat (s.X 3 z).toInt))) ∧
  (Performs (.mstp g y w x e z rm sat u) s → exec (.mstp g y w x e z rm sat u) s =
    .next (queued (.store e y rm sat u K.bank.w[w] (s.X 1 x).toNat (s.X 3 z).toInt))) ∧
  (Performs (.mrput g d z x) s → exec (.mrput g d z x) s = .next (queued (.rput d (s.V 1 z) row))) ∧
  (Performs (.mtrn g d e) s → exec (.mtrn g d e) s = .next (queued (.trn d e))) ∧
  (Performs (.mscl g d e x rm) s → exec (.mscl g d e x rm) s = .next (queued (.scl d e (s.V 2 x) rm))) ∧
  (Performs (.mexp g d e x z) s → exec (.mexp g d e x z) s = .next (queued (.exp d e (s.V 2 x) ((s.X 3 z).setWidth 32)))) ∧
  (Performs (.mrow g xd e x) s → ∃ v : VReg,
    (∀ j < 32, some (v.extractLsb' (32 * j) 32) = P.el[32 * row + j]? ∧
      some (v.extractLsb' (1024 + 32 * j) 32) = P.el[32 * ((row + 1) % 32) + j]?) ∧
    exec (.mrow g xd e x) s = .next (s.result (.v xd v) 0 .matrix 4)) ∧
  (Performs (.mmax g xd e x) s → ∃ (v : VReg) (fl : Flags),
    (∀ j < 32, (v.extractLsb' (32 * j) 32).toNat = (List.range 32).foldl (fun r k =>
      (pickFloat fp32 true r ((P.el[32 * j + k]?).getD 0).toNat).1) ((s.V 2 x).extractLsb' (32 * j) 32).toNat) ∧
    v.extractLsb' 1024 1024 = (s.V 2 x).extractLsb' 1024 1024 ∧
    exec (.mmax g xd e x) s = .next (s.result (.v xd v) fl .matrix 6)) ∧
  (Performs (.mflg g (.row xd e x)) s →
    exec (.mflg g (.row xd e x)) s = .next (s.result (.x xd ((P.lost.extractLsb' (32 * row) 32).setWidth 64)) 0 .matrix 1)) ∧
  (Performs (.mflg g (.any pd e)) s →
    exec (.mflg g (.any pd e)) s = .next (s.result (.p pd (decide (P.lost ≠ 0))) 0 .matrix 1)) ∧
  (Performs (.mfclr g d) s → exec (.mfclr g d) s =
    .next (s.modCtx A fun k => { k with bank := { k.bank with a := k.bank.a.set d { k.bank.a[d] with lost := 0 } } })) ∧
  (Performs (.mops g imm) s → ∃ ops : List CellOp, ops.length = (imm.extractLsb' 0 3).toNat + 1 ∧
    (∀ k < ops.length, (imm.extractLsb' (3 + 2 * k) 2 = 0 → ops[k]? = some .ma) ∧ (imm.extractLsb' (3 + 2 * k) 2 = 1 → ops[k]? = some .ada) ∧
      (imm.extractLsb' (3 + 2 * k) 2 = 2 → ops[k]? = some .csel)) ∧
    exec (.mops g imm) s = .next (s.modCtx A fun k => { k with ops := ops })) ∧
  (Performs (.mwin g win) s → exec (.mwin g win) s = .next (s.modCtx A fun k => { k with fp := { k.fp with win := win } })) ∧
  (∀ (f : MEntry) (rest : List MEntry), (s.tile t).mq = f :: rest → (s.tile t).stopReq = false →
    (f.begun = none → (∀ k v, f.work ≠ .add k v) → (s.tile t).fenced 4 f.serial = false → (∀ q ∈ rest, q.serial ≠ f.serial) →
      ∃ cap, exec (.matrixEntryStart t) s = .next (s.modTile t fun T => { T with mq := { f with begun := some cap } :: rest })) ∧
    (f.begun ≠ none → ∃ (k : Ctx → Ctx) (mem : TileMem),
      exec (.matrixEntryWrite t) s = .next (s.modTile t fun T => { T.modCtx f.ctx k with mem := mem, mq := rest })))

/-- When no curtain request has reached the tile and no fence holds it, the first entry of the matrix queue, not
begun, begins in a next state in which it alone holds its sources: for MTRN, MSCL, MEXP and MSTP the panel as it
stands, for MLDP the elements at its window offsets, for MMA and MMAS the operand and metadata bytes of panel rows or
of the popped entries. The oldest entry, begun, writes and goes: MZERO leaves zeros, MTRN the transpose, MRPUT rows r
and r + 1 from the vector, MLDP each element extended to 32 bits, widened to FP32, or as it is; MSCL each element
times its row's lane, rounded once to FP32; MEXP VEXP2 in fast mode of the rounded (element - lane) × s; MSTP stores
each element, cut, clipped or converted to its type, in ascending order; MMA and MMAS leave in each element what the
steps of the cell-operation sequence make of it over its groups in ascending K, GroupAdd, AbsDiffAdd and CompareSelect
(whose zero has no sign, log 24) on the float path and the clipped sums of R220 and R263 on the integer path, a pruned
position of MMAS being +0, with the lost-significance bit, which a group that answers QNaN or an infinity leaves
(R218; R217's code reads otherwise, log 106), and, where the sequence has CSEL, the index panel, from the panels as
they stand or from the group a curtain had stopped it at. The flags are joined into fp.mst; scale entries it had
reserved leave their queues. Other panels, the scratchpad but for MSTP, and every other register keep their values;
while a curtain has the queue stopped, neither step does anything. (09_numbers.md, 11_matrix.md, R217, R218, R220,
R251, R258, R259, R263, R265, R266, R271) -/
def Obligations.MatrixEntriesArePerformed : Prop :=
  ∀ (s : State) (t : TileId) (e : MEntry) (rest : List MEntry) (cap : MCapture) (d p : Fin 4) (v : VReg) (r : Nat),
  let T : Tile := s.tile t
  let B : Bank := (T.ctx e.ctx).bank
  let D : Panel := B.a[d]
  let dx : Fin 4 := d ^^^ 1
  let X : Panel := B.a[dx]
  let writes : TileMem → Panel → Option Panel → Nat → Flags → State := fun m x y n fl => s.modTile t fun U =>
    { (U.modCtx e.ctx fun k =>
        { k with
          bank := { k.bank with
            a := (match y with | some y => (k.bank.a.set d x).set dx y | none => k.bank.a.set d x)
            sqa := k.bank.sqa.drop n, sqb := k.bank.sqb.drop n }
          fp := { k.fp with mst := k.fp.mst ||| (fl &&& 0x37) } }) with mem := m, mq := rest }
  let at_ : Panel → Nat → Nat → Option (BitVec 32) := fun x i j => x.el[32 * i + j]?
  let el : Panel → Nat → Nat → BitVec 32 := fun x i j => (at_ x i j).getD 0
  let lane : Nat → BitVec 32 := fun i => v.extractLsb' (32 * i) 32
  let real : BitVec 32 → Exact := fun x => (fp32.decode x.toNat).exact
  let out : Panel → Flags → Prop := fun x fl => exec (.matrixEntryWrite t) s = .next (writes T.mem x none 0 fl) ∧ x.lost = D.lost
  let clip : Nat → Bool → Int → Int := fun w u x =>
    let lo : Int := if u then 0 else -(2 ^ (w - 1) : Nat)
    let hi : Int := if u then (2 ^ w : Nat) - 1 else (2 ^ (w - 1) : Nat) - 1
    if x < lo then lo else if hi < x then hi else x
  let spot : Window → Int → Nat → Nat := fun w off j => (w.base.toNat + ((off + (j : Int)) % (pow2Up w.size.toNat : Nat)).toNat) % 2 ^ 20
  let place : Int → Int → Ty → Nat → Nat → Int := fun off stride y i j => off + i * stride + (y.width * j : Nat)
  let string : MOperand → Nat → Nat → Nat → Prop := fun o len n str => ∀ i < n, ∀ k < len,
    let b : Byte := BitVec.ofNat 8 (str / 2 ^ (8 * (i * len + k)))
    match o with
    | .panel a => len ≤ 128 → some b = (at_ B.a[a] i (k / 4)).map fun x => x.extractLsb' (8 * (k % 4)) 8
    | .ring _ q _ =>
      b = Sparse.get 0 T.mem.spad ((q.base.toNat + (q.rd.toNat + (i * len + k) / 2 ^ q.esz.toNat) % 2 ^ q.lsize.toNat * 2 ^ q.esz.toNat) % 2 ^ 20 +
        (i * len + k) % 2 ^ q.esz.toNat)
  T.mq = e :: rest → r < 32 →
  (T.stopReq = true → exec (.matrixEntryStart t) s = .next s ∧ exec (.matrixEntryWrite t) s = .next s) ∧
  (T.stopReq = false → e.begun = none → (∀ x ∈ rest, x.serial ≠ e.serial) → (∀ k w, e.work ≠ .add k w) → T.fenced 4 e.serial = false → ∃ c,
    exec (.matrixEntryStart t) s = .next (s.modTile t fun U => { U with mq := { e with begun := some c } :: rest }) ∧
    (e.work = .trn d p ∨ (∃ rm, e.work = .scl d p v rm) ∨ (∃ x, e.work = .exp d p v x) ∨ (∃ a b m n w o f, e.work = .store p a b m n w o f) → c.panel = B.a[p]) ∧
    (∀ y u w off stride, e.work = .load d y u w off stride → ∀ i < 32, ∀ j < 32, ∃ x : Nat, c.els[32 * i + j]? = some x ∧
      x < 2 ^ (8 * y.width) ∧ ∀ k < y.width, BitVec.ofNat 8 (x / 2 ^ (8 * k)) = Sparse.get 0 T.mem.spad (spot w (place off stride y i j) k)) ∧
    (∀ a b md fa fb kb z w ops base sa sb, e.work = .mma d a b md fa fb kb z w ops base sa sb →
      string a (vecLen fa (32 * (kb + 1))) 32 c.opA ∧
      string b (match md with | some (_, n8) => vecLen fb (32 * (kb + 1) * (if n8 then 8 else 16) / 32) | none => vecLen fb (32 * (kb + 1))) 32 c.opB ∧
      (∀ m n8, md = some (m, n8) → string m 128 (kb + 1) c.opM))) ∧
  (T.stopReq = false → e.begun = some cap → e.part = none →
    (e.work = .zero d → ∃ x, out x 0 ∧ ∀ i < 32, ∀ j < 32, at_ x i j = some 0) ∧
    (e.work = .trn d p → ∃ x, out x 0 ∧ ∀ i < 32, ∀ j < 32, at_ x i j = at_ cap.panel j i) ∧
    (e.work = .rput d v r → ∃ x, out x 0 ∧
      ∀ i < 32, ∀ j < 32, at_ x i j =
        if i = r then some (v.extractLsb' (32 * j) 32) else if i = (r + 1) % 32 then some (v.extractLsb' (1024 + 32 * j) 32) else at_ D i j) ∧
    (∀ y u w off stride, e.work = .load d y u w off stride → y ≠ .i64 → ∃ x fl, out x fl ∧ ∀ i < 32, ∀ j < 32,
      let n : BitVec y.bits := BitVec.ofNat y.bits (cap.els.getD (32 * i + j) 0)
      cap.els.getD (32 * i + j) 0 < 2 ^ y.bits →
      if y = .bf16 ∨ y = .f16 then fp32.Converted .rne false ((tyFmt y).decode n.toNat) (el x i j).toNat
      else el x i j = if u = true ∨ y.isInt = false then n.setWidth 32 else n.signExtend 32) ∧
    (∀ rm, e.work = .scl d p v rm → ∃ x fl, out x fl ∧ ∀ i < 32, ∀ j < 32,
      fp32.Takes rm ((real (el cap.panel i j)).mul (real (lane i))) (el x i j).toNat) ∧
    (∀ f, e.work = .exp d p v f → ∃ x fl, out x fl ∧ ∀ i < 32, ∀ j < 32, ∃ y,
      fp32.Takes .rne (((real (el cap.panel i j)).add .rne (real (lane i)).neg).mul (real f)) y ∧
      el x i j = BitVec.ofNat 32 (fp32.afun .exp2 false .rne (fp32.decode y)).1) ∧
    (∀ y rm sat u w off stride, e.work = .store p y rm sat u w off stride → y ≠ .i64 → Sparse.wf 0 T.mem.spad = true →
      ∃ (m : Nat → TileMem) (n : Nat → Nat) (fl : Flags), m 0 = T.mem ∧
        exec (.matrixEntryWrite t) s = .next (writes (m 1024) D none 0 fl) ∧
        ∀ i < 32, ∀ j < 32, n (32 * i + j) < 2 ^ y.bits ∧
          TileMem.EngineWrote (m (32 * i + j)) (m (32 * i + j + 1)) w (place off stride y i j)
            ((List.range y.width).map fun k => BitVec.ofNat 8 (n (32 * i + j) / 2 ^ (8 * k))) ∧
          (match y with
            | .bf16 => fpBf16.Converted rm false (fp32.decode (el cap.panel i j).toNat) (n (32 * i + j))
            | .f16 => fp16.Converted rm false (fp32.decode (el cap.panel i j).toNat) (n (32 * i + j))
            | _ => BitVec.ofNat y.bits (n (32 * i + j)) =
              if sat = true ∧ y.bits < 32 then BitVec.ofInt y.bits (clip y.bits u (el cap.panel i j).toInt)
              else (el cap.panel i j).setWidth y.bits))) ∧
  (T.stopReq = false → e.begun = some cap → ∀ a b md fa fb kb z win ops base sa sb,
    e.work = .mma d a b md fa fb kb z win ops base sa sb → ops ≠ [] → fa.scaled = fb.scaled → fa.isInt = fb.isInt →
    ∃ (x y : Panel) (fl : Flags), exec (.matrixEntryWrite t) s =
        .next (writes T.mem x (if CellOp.csel ∈ ops then some y else none) sa.length fl) ∧
      (e.part = none → y.lost = X.lost) ∧
      ∀ i < 32, ∀ j < 32,
        let K : Nat := 32 * (kb + 1)
        let G : Nat := min fa.group fb.group
        let code : MFmt → Nat → Nat → Nat → Nat := fun f str n k => str / 2 ^ (8 * (n * vecLen f K) + k * f.bits) % 2 ^ f.bits
        let A : Nat → Val := fun k => mdecode fa (code fa cap.opA i k)
        let Bv : Nat → Val := fun k => match md with
          | none => mdecode fb (code fb cap.opB j k)
          | some (_, n8) =>
            let N : Nat := if n8 then 8 else 16
            let word : BitVec 32 := BitVec.ofNat 32 (cap.opM / 2 ^ (32 * (32 * (k / 32) + j)))
            let below : Nat := ((List.range (k % 32)).filter fun b => word.getLsbD b).length
            if word.getLsbD (k % 32) = true ∧ below < N then
              mdecode fb (cap.opB / 2 ^ (8 * (j * vecLen fb (K * N / 32)) + (N * (k / 32) + below) * fb.bits) % 2 ^ fb.bits)
            else .fin false 0 0
        let scale : MFmt → List (BitVec 256) → Nat → Nat → Option Int := fun f l n g =>
          if f.scaled = false then some 0
          else if ((l.getD (g * G / 32) 0).extractLsb' (8 * n) 8) = 0xFF then none
          else some ((((l.getD (g * G / 32) 0).extractLsb' (8 * n) 8).toNat : Int) - 127)
        let W : Option Nat := match win with | 1 => some 8 | 2 => some 16 | 3 => some 24 | 4 => some 32 | 5 => some 48 | _ => none
        let ks : Nat → List Nat := fun g => (List.range G).map fun k => g * G + k
        let groupAdded : Nat → BitVec 32 × BitVec 32 × Bool → BitVec 32 × BitVec 32 × Bool → Prop := fun g c c' =>
          let sa' := scale fa sa i g
          let sb' := scale fb sb j g
          let bad : Bool := sa'.isNone || sb'.isNone || (ks g).any fun k => (A k).isNan || (Bv k).isNan
          let ka : Int := sa'.getD 0
          let kb' : Int := sb'.getD 0
          let prod : List Exact := (ks g).map fun k => (A k).exact.mul (Bv k).exact
          match ops.getD (g % ops.length) .ma with
          | .ma => GroupAdded bad c.1.toNat prod (ka + kb') W c.2.2 c'.1.toNat c'.2.2 ∧ c'.2.1 = c.2.1
          | .ada => GroupAdded bad c.1.toNat ((ks g).map fun k =>
              (((A k).exact.scale ka).add .rne ((Bv k).exact.scale kb').neg).abs) 0 W c.2.2 c'.1.toNat c'.2.2 ∧ c'.2.1 = c.2.1
          | .csel => CompareSelected bad c.1.toNat c.2.1.toNat (prod.map (Exact.scale (ka + kb'))) (base + g * G) c'.1.toNat c'.2.1.toNat ∧
            c'.2.2 = c.2.2
        let intStep : Nat → BitVec 32 × BitVec 32 × Bool → BitVec 32 × BitVec 32 × Bool → Prop := fun g c c' =>
          let term : (Int → Int → Int) → List Int := fun f => (ks g).map fun k => f (A k).smant (Bv k).smant
          match ops.getD (g % ops.length) .ma with
          | .ma => c' = (BitVec.ofInt 32 (clip 32 false (c.1.toInt + (term fun x y => x * y).sum)), c.2)
          | .ada => c' = (BitVec.ofInt 32 (clip 32 false (c.1.toInt + (term fun x y => ((x - y).natAbs : Int)).sum)), c.2)
          | .csel => ∃ (m : Nat) (x : Int), (term fun x y => x * y)[m]? = some x ∧ (∀ y ∈ (term fun x y => x * y), y ≤ x) ∧
            (∀ n < m, ∀ y ∈ (term fun x y => x * y)[n]?, y < x) ∧
            c' = if c.1.toInt < x then (BitVec.ofInt 32 x, BitVec.ofNat 32 (base + g * G + m), c.2.2) else c
        let first : BitVec 32 := if ops.head? = some .csel then (if fa.isInt then 0x80000000 else 0xFF800000) else 0
        ∃ (c : Nat → BitVec 32 × BitVec 32 × Bool) (g0 : Nat),
          (e.part = none → g0 = 0 ∧ c 0 = if z then (first, 0, D.lost.getLsbD (32 * i + j))
            else (el D i j, el X i j, D.lost.getLsbD (32 * i + j))) ∧
          (∀ q, e.part = some q → g0 = q.g ∧ c g0 = (el q.acc i j, el q.idx i j, q.acc.lost.getLsbD (32 * i + j))) ∧
          (∀ g, g0 ≤ g → g < K / G → if fa.isInt then intStep g (c g) (c (g + 1)) else groupAdded g (c g) (c (g + 1))) ∧
          let last := c (max g0 (K / G))
          el x i j = last.1 ∧ x.lost.getLsbD (32 * i + j) = last.2.2 ∧
            (CellOp.csel ∈ ops → el y i j = last.2.1))

/-- When its bundle has issued and its guard is true, and its record passes its checks, each of CPY, CPYR, MCAST and
PGCAST answers a next state in which one entry with the record of R194 (R274), in the windows as they stand, has
entered queue q; SEQ one in which sequencer q holds its record of R195, SEQGO one in which it runs from indices 0 with
the shift X(a), CONDV one in which P(a) is the last bit of its buffer. CNTADD enters the queue it names, or adds at
issue for code 7; CNTRD puts the local counter in flight, or sends a read to the tile of the rank; QFENCE leaves its
mark; DRAIN and FENCE make their bundle wait for every earlier access, at system scope for host order too; CNTWAIT and
CPYWAIT, whose waits are over, change nothing. (07_fed.md, R169, R172, R194, R195, R197, R200, R201, R203, R205, R286,
R291) -/
def Obligations.EngineInstructions : Prop :=
  ∀ (s : State) (g : Guard) (t : TileId) (c : Fin 4) (w : Fin 8) (a : Src) (q : Fin 4) (n : BitVec 2) (p : Fin 16) (qc : BitVec 3) (k : BitVec 9)
    (d : Fin 32) (m4 : BitVec 4) (m6 : BitVec 6) (sc : Scope),
  let A : Agent := .ctx t c
  let K : Bank := s.issue.ctx.bank
  let word : Nat → Nat := fun j => recWord s.issue.mem.spad K.w[w] (s.X 1 a).toNat j
  let queued : CopyWork → Fin 4 → State := fun v i => s.modTile t fun T =>
    { T with queues := T.queues.set i (T.queues[i] ++ [⟨T.serial, c, v, 0, false, none, false, false, T.sceneCycle + 1, none⟩]), serial := T.serial + 1 }
  let isRec : CopyRec → Prop := fun r =>
    r.dir = word 0 / 2 ^ 61 % 8 ∧ r.one = (word 0).testBit 60 ∧ r.cplace = word 0 / 2 ^ 50 % 4 ∧ r.cidx = word 0 / 2 ^ 41 % 2 ^ 9 ∧
    r.crank = word 0 / 2 ^ 32 % 2 ^ 9 ∧ r.len = word 0 % 2 ^ 32 ∧ r.bf16 = decide (word 0 / 2 ^ 52 % 4 = 1) ∧
    some r.swin = K.w[word 0 / 2 ^ 57 % 8]? ∧ some r.dwin = K.w[word 0 / 2 ^ 54 % 8]? ∧ r.src = word 1 ∧ r.dst = word 2 ∧ r.cva = word 3
  let copies : Instr → Prop := fun i => ∃ r, isRec r ∧ exec i s = .next (queued (.copy r) q)
  let onSeq : (Sequencer → Sequencer) → Fin 4 → State := fun f i => s.modTile t fun T => { T with seqs := T.seqs.set i (f T.seqs[i]) }
  let waits : List PostWait → State := fun l => s.modCtx A fun x => { x with tail := x.tail.map fun tl => { tl with waits := tl.waits ++ l } }
  let now : Nat := (s.tile t).serial
  s.issue.agent = A →
  (Performs (.cpy g w a q) s → (∃ r, s.copyRec w a cpyDir = .ok r) → copies (.cpy g w a q)) ∧
  (Performs (.cpyr g w a q) s → (∃ r, s.copyRec w a cpyrDir = .ok r) → copies (.cpyr g w a q)) ∧
  (Performs (.mcast g w a q) s → (∃ r, s.copyRec w a mcastDir = .ok r) → copies (.mcast g w a q)) ∧
  (Performs (.pgcast g w a q) s → (∃ r, s.pageRec w a = .ok r) → exec (.pgcast g w a q) s = .next (queued
    (.page ((word 0).testBit 63) (decide (word 0 / 2 ^ 50 % 4 = 1)) (word 0 / 2 ^ 41 % 2 ^ 9) (word 0 % 2 ^ 32) (word 1) (word 2 % 2 ^ 16) (word 2 / 2 ^ 16 % 2 ^ 8)) q)) ∧
  (Performs (.seq g w a q) s → (∃ r, s.seqRec w a = .ok r) → ∃ r, isRec r.copy ∧
    r.counts = (List.range 6).map (fun j => word (4 + j / 4) / 2 ^ (16 * (j % 4)) % 2 ^ 16 + 1) ∧ r.skew = word 5 / 2 ^ 32 % 16 ∧
    r.sstride = (List.range 6).map (fun j => (BitVec.ofNat 32 (word (6 + j))).toInt) ∧
    r.dstride = (List.range 6).map (fun j => (BitVec.ofNat 32 (word (6 + j) / 2 ^ 32)).toInt) ∧
    exec (.seq g w a q) s = .next (onSeq (fun x => { x with record := some r }) q)) ∧
  (Performs (.seqgo g a q) s → exec (.seqgo g a q) s =
    .next (onSeq (fun x => { x with run := some ⟨[0, 0, 0, 0, 0, 0], (s.X 1 a).toInt, c, 0⟩, bits := [] }) q)) ∧
  (Performs (.condv g p n) s → exec (.condv g p n) s = .next (onSeq (fun x => { x with bits := x.bits ++ [s.P p] }) n.toFin)) ∧
  (Performs (.cntadd g a qc k) s →
    (∀ h : qc.toNat < 4, exec (.cntadd g a qc k) s = .next (queued (.add k.toNat (s.X 1 a)) ⟨qc.toNat, h⟩)) ∧
    (qc = 4 → exec (.cntadd g a qc k) s = .next (s.modTile t fun T =>
      { T with mq := T.mq ++ [⟨T.serial, c, .add k.toNat (s.X 1 a), none, [], none⟩], serial := T.serial + 1 })) ∧
    (qc = 5 → exec (.cntadd g a qc k) s = .next (s.modTile t fun T =>
      { T with e5 := T.e5 ++ [⟨T.serial, c, s.issue.hdr, .add k.toNat (s.X 1 a), false, T.serial, false⟩], serial := T.serial + 1 })) ∧
    (qc = 7 → Sparse.wf 0 (s.tile t).mem.spad = true → ∃ m, exec (.cntadd g a qc k) s = .next (s.modTile t fun T => { T with mem := m }) ∧
      m.counter k.toNat = (s.tile t).mem.counter k.toNat + s.X 1 a ∧
      ∀ j, (j < 0xFF000 + 8 * k.toNat ∨ 0xFF000 + 8 * k.toNat + 8 ≤ j) → Sparse.get 0 m.spad j = Sparse.get 0 (s.tile t).mem.spad j)) ∧
  (Performs (.cntwait g a k) s → exec (.cntwait g a k) s = .next s) ∧
  (Performs (.cpywait g m4) s → exec (.cpywait g m4) s = .next s) ∧
  (Performs (.cntrd g d a false k) s →
    exec (.cntrd g d a false k) s = .next (s.result (.x d (s.issue.mem.counter k.toNat)) 0 .scalar 1)) ∧
  (Performs (.cntrd g d a true k) s → ∃ x : Access, x.id = now ∧ x.ctx = c ∧ x.dest = .reg d ∧
    x.kind = .counterRead (s.issue.mem.bnd.ofRank (s.X 1 a).toNat) k.toNat d ∧
    exec (.cntrd g d a true k) s = .next ((s.modTile t fun T => { T with accs := T.accs ++ [x], serial := T.serial + 1 }).modCtx A fun y =>
      { y with flight := y.flight ++ [⟨.x d 0, 0, .scalar, 0, false, some now⟩] })) ∧
  (Performs (.qfence g m6) s → exec (.qfence g m6) s = .next (s.modTile t fun T => { T with fences := T.fences ++ [⟨m6.toNat, T.serial⟩] })) ∧
  (Performs (.drain g) s → exec (.drain g) s = .next (waits [.accesses now])) ∧
  (Performs (.fence g sc) s → exec (.fence g sc) s =
    .next (waits (if sc = .system then [.accesses now, .hostOrder now] else [.accesses now])))

/-- When its bundle has issued and its guard is true, each of BAR, SCENE, NETRED, NETBC, REDOPEN and REDCLOSE answers
a next state in which one e5 entry with its arguments as they stand has entered and the bundle waits for it.
MRGDRN.open opens its stream from X(a) with M = -∞, L = +0 and O zero; MERGE fills the landed entry of seq with its
partial and frees the slot; MRGDRN.drain and .fin, whose entries below the limit are all filled, merge them in
ascending seq as MergeIn has it, every sum exact and rounded once, the weights VEXP2 in fast mode of the rounded
differences, and free them, floor rising to the limit and the flags joining fp.vst; .fin then puts O[j] / L, rounded
once, in flight for 4 cycles and closes the stream. LKSEND and LKRECV mode 0 enter queue q with the flits, the stream
and the counter; a reset empties the stream's buffer on its side, completes the entries of that side that have not
moved all their flits and no other, and halts it until the frame named; LKRECV mode 2 reads lk.frame.
(12_attention_by_pages.md, 13_synchronised.md, 14_two_boxes.md, R279, R280, R295, R300, R301, R302, R304, R311, R313) -/
def Obligations.CollectiveMergeAndLinkInstructions : Prop :=
  ∀ (s : State) (g : Guard) (t : TileId) (c : Fin 4) (y : Ty) (d : Fin 32) (w : Fin 8) (x1 x2 x3 : Src) (id : BitVec 2) (sc : Scope) (sm : BitVec 16)
    (grp : BitVec 3) (o : ScanOp) (u sat bf : Bool) (be : BitVec 9) (l1 : BitVec 14) (q : Fin 4) (port cnt : Bool) (ln : BitVec 6) (nf : BitVec 14) (ci : BitVec 9),
  let A : Agent := .ctx t c
  let T : Tile := s.tile t
  let k : Fin 4 := id.toFin
  let e5 : E5Work → State := fun v =>
    (s.modTile t fun U => { U with e5 := U.e5 ++ [⟨U.serial, c, s.issue.hdr, v, false, U.serial, false⟩], serial := U.serial + 1 }).modCtx A fun z =>
      { z with tail := z.tail.map fun tl => { tl with waits := tl.waits ++ [.e5 T.serial] } }
  let queued : CopyWork → State := fun v => s.modTile t fun U =>
    { U with queues := U.queues.set q (U.queues[q] ++ [⟨U.serial, c, v, 0, false, none, false, false, U.sceneCycle + 1, none⟩]), serial := U.serial + 1 }
  let stream : MergeStream → List MergeEntry → State := fun m l => s.modTile t fun U => { U with merges := l, streams := U.streams.set k m }
  let below : Nat → List MergeEntry := fun n => T.merges.filter fun e => e.stream = k && e.seq < n
  let drained : Nat → MergeStream → Flags → State := fun n m fl =>
    (stream { T.streams[k] with m := m.m, l := m.l, o := m.o, floor := max T.streams[k].floor n }
      (T.merges.filter fun e => !(e.stream = k && e.seq < n))).modCtx A fun x => { x with fp := { x.fp with vst := x.fp.vst ||| fl } }
  let ctr : Option Nat := if cnt then some ci.toNat else none
  let a : Nat := (s.X 1 x1).toNat
  let b : Nat := (s.X 2 x2).toNat
  s.issue.agent = A →
  (Performs (.bar g id sc sm) s → exec (.bar g id sc sm) s = .next (e5 (.bar k sc sm.toNat))) ∧
  (Performs (.scene g) s → exec (.scene g) s = .next (e5 .scene)) ∧
  (Performs (.netred g y d x1 x2 grp o u sat) s → exec (.netred g y d x1 x2 grp o u sat) s =
    .next (e5 (.netred grp.toFin y o u sat d (s.V 1 x1) b))) ∧
  (Performs (.netbc g y d x1 x2 x3 grp) s → exec (.netbc g y d x1 x2 x3 grp) s =
    .next (e5 (.netbc grp.toFin y d (s.V 1 x1) b (s.X 3 x3).toNat))) ∧
  (Performs (.redopen g d x1 bf be l1) s → exec (.redopen g d x1 bf be l1) s =
    .next (e5 (.redopen d a (128 * (l1.toNat + 1)) bf ((be.toNat : Int) - 150)))) ∧
  (Performs (.redclose g d x1) s → exec (.redclose g d x1) s = .next (e5 (.redclose d a))) ∧
  (Performs (.mrgdrnOpen g x1 id) s → ∃ m, exec (.mrgdrnOpen g x1 id) s = .next (stream m T.merges) ∧ m.opened = true ∧ m.ctx = c ∧
    m.lbase = a % 2 ^ 20 ∧ m.lsz = a / 2 ^ 24 % 8 + 10 ∧ m.cidx = a / 2 ^ 32 % 2 ^ 9 ∧ m.nslot = 0 ∧ m.floor = 0 ∧
    m.m = 0xFF800000 ∧ m.l = 0 ∧ m.o = List.replicate 64 0 ∧ m.busy = T.streams[k].busy) ∧
  (Performs (.merge g x1 x2 x3 id) s → ∃ l : List MergeEntry,
    exec (.merge g x1 x2 x3 id) s = .next (stream { T.streams[k] with busy := T.streams[k].busy.map fun z => if z = some b then none else z } l) ∧
    l.length = T.merges.length ∧ ∀ (j : Nat) (e : MergeEntry), T.merges[j]? = some e →
      (e.stream = k ∧ e.seq = b ∧ e.part = none →
        l[j]? = some { e with part := some ((s.X 3 x3).extractLsb' 0 32, (s.X 3 x3).extractLsb' 32 32,
          (List.range 64).map fun i => (s.V 1 x1).extractLsb' (32 * i) 32) }) ∧
      (¬(e.stream = k ∧ e.seq = b ∧ e.part = none) → l[j]? = some e)) ∧
  (Performs (.mrgdrnDrain g x1 id) s → (∀ e ∈ below a, e.part ≠ none) → ∃ m fl, Drained (below a) T.streams[k] m ∧
    exec (.mrgdrnDrain g x1 id) s = .next (drained a m fl)) ∧
  (Performs (.mrgdrnFin g d id) s → (∀ e ∈ below 65536, e.part ≠ none) → ∃ (m : MergeStream) (fl fl' : Flags) (r : VReg),
    Drained (below 65536) T.streams[k] m ∧
    (∀ j < 64, ∀ z, m.o[j]? = some z → fp32.Takes .rne ((real32 z).div (real32 m.l)) (r.extractLsb' (32 * j) 32).toNat) ∧
    exec (.mrgdrnFin g d id) s = .next (((drained 65536 m fl).modTile t fun U =>
      { U with streams := U.streams.set k { U.streams[k] with opened := false } }).result (.v d r) fl' .vector 4)) ∧
  (Performs (.lksendData g w x1 q port ln nf cnt ci) s → exec (.lksendData g w x1 q port ln nf cnt ci) s =
    .next (queued (.send port ln.toFin s.issue.ctx.bank.w[w] a (nf.toNat + 1) ctr))) ∧
  (Performs (.lkrecvPost g w x1 q port ln nf cnt ci) s → exec (.lkrecvPost g w x1 q port ln nf cnt ci) s =
    .next (queued (.recv port ln.toFin s.issue.ctx.bank.w[w] a (nf.toNat + 1) ctr))) ∧
  (Performs (.lksendRst g x1 port ln) s → ∃ v, exec (.lksendRst g x1 port ln) s = .next v ∧
    (v.port port).streams[ln.toFin] = ⟨[], (s.port port).streams[ln.toFin].recvBuf, true, some (max a (s.port port).frame.toNat)⟩ ∧
    (∀ i : Fin 4, (v.tile t).queues[i] = T.queues[i].filter fun e => !(match e.work with
      | .send p l _ _ n _ => p == port && l == ln.toFin && (e.off < n || (s.port port).streams[ln.toFin].sendBuf.any fun f => f.1 == e.serial)
      | _ => false)) ∧
    v.port (!port) = s.port (!port)) ∧
  (Performs (.lkrecvRst g x1 port ln) s → ∃ v, exec (.lkrecvRst g x1 port ln) s = .next v ∧
    (v.port port).streams[ln.toFin] = ⟨(s.port port).streams[ln.toFin].sendBuf, [], true, some (max a (s.port port).frame.toNat)⟩ ∧
    (∀ i : Fin 4, (v.tile t).queues[i] = T.queues[i].filter fun e => !(match e.work with | .recv p l _ _ _ _ => p == port && l == ln.toFin && !e.done | _ => false)) ∧
    v.port (!port) = s.port (!port)) ∧
  (Performs (.lkrecvFrame g d port) s →
    exec (.lkrecvFrame g d port) s = .next (s.result (.x d ((s.port port).frame.setWidth 64)) 0 .scalar 2))

/-- A running sequencer, without a stop request and with room, emits the copy of its indices with shift and strides
added and takes the next ones, level 0 fastest; an outer iteration at or past the skew first takes its condition bit:
it pauses while there is none, and a false one skips it. The head of a queue, not stopped, held or fenced, moves: for
dir 3 its stage-bank bytes go to the scratchpad, from the bank's start again beyond its end (log 35); for dir 0, 1, 4
and 5 the bytes up to the end of a 64-byte half move at once, through the translation of their fragment, made once
(log 39), which claims a first-touch region: for dir 0 into the scratchpad, for dir 1 from it into memory, for dir 4
into the wing-bank lines of every tile of the rectangle, and for dir 5 each element is reduce-added into the open
window over the fragment; it waits at a held domain (log 103), and for a host half that it has to ask for. A copy that
does not translate, has no window, meets data in error, or has no quota stops with its cause and offset, its record
sent to its context; a walk in format or owner error holds it, with the system fault. From its starting cycle on
(modulo 2^16, log 35) a dir-2 copy injects a flit a cycle, and due flits are taken at their routers; a copy leaves
with a route fault where one is dropped, and completes in the cycle in which its last flit is written, its successor
injecting from the next one on; an entry that delivers locally writes the flit to its wing-bank line, where the tile's
valid bit is set (log 112), one that forwards it hands it to the next router in the next cycle, and two flits at one
output in one cycle raise the route-conflict fault and stop router and queue. A head whose bytes are complete adds 1
or len to its counter, at the place its record names, and leaves, or stops where a counter in memory cannot be reached
or is in error; a CNTADD adds its value. The cycles of flits are the scene's count (logs 47 and 111). (07_fed.md,
08_access_and_copy.md, 09_numbers.md, R70, R170, R171, R172, R198, R199, R202, R221, R356) -/
def Obligations.CopiesAtWork : Prop :=
  ∀ (s : State) (t : TileId) (q : Fin 4) (e : CopyEntry) (rest : List CopyEntry) (r : CopyRec) (z : SeqRec) (u : SeqRun),
  let T : Tile := s.tile t
  let o : OwnerTag := T.mem.bnd.owner
  let pos : List Nat → Nat := fun idx => (idx.zip z.counts).foldr (fun p acc => p.1 + p.2 * acc) 0
  let sum : List Int → Int := fun st => (List.zipWith (fun (i : Nat) (d : Int) => (i : Int) * d) u.idx st).sum
  let toDst : Bool := z.copy.dir == 1 || z.copy.dir == 5
  let seq : Sequencer → Tile → Tile := fun x U => { U with seqs := U.seqs.set q x }
  let head : List CopyEntry → Tile → Tile := fun l U => { U with queues := U.queues.set q (l ++ rest) }
  let after : List CopyEntry → Tile → List CopyEntry := fun l U => match l with
    | [] => [] | x :: m => { x with entered := max x.entered (U.sceneCycle + 1) } :: m
  let leaves : Tile → Tile := fun U => { U with queues := U.queues.set q (after rest U) }
  let reads : Bool := r.dir == 0 || r.dir == 4
  let mva : Nat := if reads then r.src else r.dst
  let va : Nat := mva + e.off
  let page : Nat := va / 2 ^ 16
  let n : Nat := min (64 - va % 64) (r.len - e.off)
  let first : Nat := page * 2 ^ 16 - mva
  let last : Nat := min r.len ((page + 1) * 2 ^ 16 - mva)
  let walked : Nat → Bool → Bool → Fragment := fun a rd wr => match s.mem.walk o a with
    | .absent => .stop 1 | .format => .fault 0x20 | .owner => .fault 0x21
    | .leaf l large _ =>
      let pa : Nat := l / 2 ^ 16 % 2 ^ 32 * 2 ^ 16 + a % (if large then 2 ^ 29 else 2 ^ 16)
      if (rd && !l.testBit 2) || (wr && !l.testBit 3) then .stop 2 else if s.mem.place pa = .peer then .stop 3 else .at_ pa l
  let found : Fragment := match e.frag with
    | some (p, base, l) => if p = page then .at_ (base + va % 2 ^ 16) l else walked va reads !reads
    | none => walked va reads !reads
  let stopped : Nat → Nat → State → Prop := fun c off v => (v.tile t).mem = T.mem ∧
    (∃ x : CopyEntry, (v.tile t).queues[q] = x :: rest ∧ x.stopped = some c ∧ x.off = off ∧ x.frag = none ∧ x.work = e.work) ∧
    (∀ q', q' ≠ q → (v.tile t).queues[q'] = T.queues[q']) ∧
    ∃ k, ((v.tile t).ctx e.ctx).records = (T.ctx e.ctx).records ++ [k] ∧ k.code = 0x10 ∧ k.isRec = true ∧
      k.info0.toNat = q.val + 256 * c ∧ k.info1.toNat = off % 2 ^ 64 ∧ k.queue = some q
  let faulted : Nat → State → Prop := fun c v => (v.tile t).queues[q] = { e with held := true } :: rest ∧
    ∃ f, v.faults = s.faults ++ [f] ∧ f.code = c ∧ f.ctx = some e.ctx ∧ f.rank = (T.mem.bnd.rank t)
  let spadAt : Nat → Nat := fun j => (r.swin.base.toNat + (((r.src + e.off + j : Nat) : Int) % (pow2Up r.swin.size.toNat : Nat)).toNat) % 2 ^ 20
  let bytes : List Byte := (List.range n).map fun j => Sparse.get 0 T.mem.spad (spadAt j)
  let spoiled : Prop := ∃ j < n, spadAt j / 8 ∈ T.mem.poison
  let me : HostWait := .copy t q
  let gain : Nat := if r.one then 1 else r.len
  let corner : Nat × Nat × Nat × Nat := (r.dst / 2 ^ 10 % 2 ^ 5, r.dst / 2 ^ 15 % 2 ^ 4, r.dst / 2 ^ 19 % 2 ^ 5 + 1, r.dst / 2 ^ 24 % 2 ^ 4 + 1)
  let inside : TileId → Prop := fun x => ∃ c w, c < corner.2.2.1 ∧ w < corner.2.2.2 ∧
    x.val = ((T.mem.bnd.orow.toNat + corner.2.1 + w) * 24 + T.mem.bnd.ocol.toNat + corner.1 + c) % 384
  let fits : Prop := corner.1 + corner.2.2.1 ≤ T.mem.bnd.cols.toNat ∧ corner.2.1 + corner.2.2.2 ≤ T.mem.bnd.rows.toNat
  let on : Prop := T.queues[q] = e :: rest ∧ e.stopped = none ∧ e.held = false ∧ T.fenced q.val e.serial = false
  let counted : TileId → Tile → Tile := fun x U => { U with mem := (s.tile x).mem.addCounter r.cidx (BitVec.ofNat 64 gain) }
  (T.seqs[q].record = some z → T.seqs[q].run = some u → T.stopReq = false → T.copies < 128 → z.counts.length = 6 → u.idx.length = 6 →
    (∀ p ∈ u.idx.zip z.counts, p.1 < p.2) →
    let tests : Prop := z.skew ≠ 0 ∧ z.skew ≤ u.idx.getD 5 0 ∧ u.used ≤ u.idx.getD 5 0 - z.skew ∧ u.idx.take 5 = [0, 0, 0, 0, 0]
    let emits : Nat → List Bool → Prop := fun used bits => ∃ (run : Option SeqRun) (x : CopyRec),
      exec (.sequencerEmit t q) s = .next (s.modTile t fun U =>
        { U with
          seqs := U.seqs.set q { U.seqs[q] with run := run, bits := bits },
          queues := U.queues.set q (U.queues[q] ++ [⟨U.serial, u.ctx, .copy x, 0, false, none, false, false, U.sceneCycle + 1, none⟩]),
          serial := U.serial + 1 }) ∧
      x = { z.copy with src := x.src, dst := x.dst } ∧
      (x.src : Int) = ((z.copy.src : Int) + (if toDst then 0 else u.shift) + sum z.sstride) % 2 ^ 64 ∧
      (x.dst : Int) = ((z.copy.dst : Int) + (if toDst then u.shift else 0) + sum z.dstride) % 2 ^ 64 ∧
      (∀ v, run = some v → v = { u with idx := v.idx, used := used } ∧ v.idx.length = 6 ∧ pos v.idx = pos u.idx + 1) ∧
      (run = none → pos u.idx + 1 = z.counts.foldl (· * ·) 1)
    (¬ tests → emits u.used T.seqs[q].bits) ∧
    (tests → T.seqs[q].bits = [] → exec (.sequencerEmit t q) s = .next s) ∧
    (∀ bits, tests → T.seqs[q].bits = true :: bits → emits (u.used + 1) bits) ∧
    (∀ i bits, tests → u.idx = [0, 0, 0, 0, 0, i] → T.seqs[q].bits = false :: bits →
      exec (.sequencerEmit t q) s = .next (s.modTile t (seq { T.seqs[q] with
        bits := bits, run := if i + 1 < z.counts.getD 5 1 then some { u with idx := [0, 0, 0, 0, 0, i + 1], used := u.used + 1 } else none })))) ∧
  (on → e.work = .copy r →
    (e.done = false → r.dir = 3 → (∀ m ∈ (s.net t).scenes, m.rank = s.rank t → e.serial < m.serial) → Sparse.wf 0 T.mem.spad = true →
      (T.mem.poison = [] → ∃ m,
        exec (.copyPerform t q) s = .next (s.modTile t fun U => head [{ e with off := r.len, done := true, begun := true }] { U with mem := m }) ∧
        TileMem.EngineWrote T.mem m r.dwin r.dst
          ((List.range r.len).map fun j => Sparse.get 0 (if T.mem.stage1 then T.mem.bank1 else T.mem.bank0) ((r.src + j) % 2 ^ 17))) ∧
      (∀ j < r.len, 2 ^ 17 + (if T.mem.stage1 then 2 ^ 14 else 0) + (r.src + j) % 2 ^ 17 / 8 ∈ T.mem.poison →
        ∃ v, exec (.copyPerform t q) s = .next v ∧ stopped 7 0 v)) ∧
    (e.done = false → r.dir = 4 → ¬ fits → ∃ v, exec (.copyPerform t q) s = .next v ∧ faulted 0x22 v) ∧
    (e.done = false → r.dir ≠ 2 → r.dir ≠ 3 →
      (r.dir = 4 → fits ∧ (e.begun = true ∨ ∃ x : TileId, (s.tile x).pad = T.pad ∧ T.pad ≠ none ∧ ∀ m ∈ (s.net t).scenes, m.rank ≠ s.rank x)) →
      (∀ c, found = .stop c → ∃ v, exec (.copyPerform t q) s = .next v ∧ v.mem = s.mem ∧ stopped c first v) ∧
      (∀ c, found = .fault c → ∃ v, exec (.copyPerform t q) s = .next v ∧ v.mem = s.mem ∧ faulted c v) ∧
      (∀ pa l, found = .at_ pa l →
        let b1 : State := if (∀ f, e.frag = some f → f.1 ≠ page) ∧ l / 2 ^ 52 % 16 = 8 then (s.firstTouch t (pa / 2 ^ 16)).2 else s
        let at_ : Nat := b1.mem.eff pa
        let e1 : CopyEntry := { e with begun := true, frag := some (page, pa - va % 2 ^ 16, l) }
        let parked : Prop := l / 2 ^ 52 % 16 ≠ 8 ∧ (s.mem.dom (Fin.ofNat 8 (l / 2 ^ 52))).hold = true
        let b2 : State := (b1.withMem (b1.mem.evictOthers at_ o)).modTile t (head [e1])
        let moved : Tile → Tile := head [{ e1 with off := e.off + n, done := e.off + n == r.len }]
        let own : CxlReq := if at_ % 64 = 0 ∧ n = 64 then .rdOwnNoData else .rdOwn
        let need : Option CxlReq :=
          if r.dir = 5 ∨ b2.mem.place at_ ≠ .host then none
          else match b2.mem.half at_ with
            | none => if reads = false then some own else if l.testBit 6 then none else some .rdShared
            | some x => if reads = false ∧ x.st = .shared then some own else none
        (parked → exec (.copyPerform t q) s = .next (b1.modTile t (head [e1]))) ∧
        (∀ k, ¬ parked → need = some k → (∀ x ∈ b2.mem.hreqs, x.half = at_ / 64 → x.kind ≠ k) →
          exec (.copyPerform t q) s = .next { b2 with
            mem := { b2.mem with hreqs := b2.mem.hreqs ++ [⟨at_ / 64, k, o, Fin.ofNat 8 (l / 2 ^ 52), [me], l.testBit 6⟩] },
            out := b2.out ++ [.cxl k (at_ / 64) []] }) ∧
        (∀ k, ¬ parked → need = some k → (∃ x ∈ b2.mem.hreqs, x.half = at_ / 64 ∧ x.kind = k) →
          exec (.copyPerform t q) s = .next { b2 with mem := { b2.mem with hreqs := b2.mem.hreqs.map fun x =>
            if x.half = at_ / 64 ∧ x.kind = k then
              { x with waiters := if me ∈ x.waiters then x.waiters else x.waiters ++ [me], nalloc := x.nalloc && l.testBit 6 } else x } }) ∧
        (¬ parked → need = none → Sparse.wf 0 T.mem.spad = true →
          (reads = true → b2.mem.badIn pa n = true → ∃ v, exec (.copyPerform t q) s = .next v ∧ v.mem = b2.mem ∧ stopped 7 first v) ∧
          (r.dir = 0 → b2.mem.badIn pa n = false → ∃ m,
            exec (.copyPerform t q) s = .next (b2.modTile t fun U => moved { U with mem := m }) ∧
            TileMem.EngineWrote T.mem m r.dwin (r.dst + e.off : Nat) ((List.range n).map fun j => b2.mem.read (pa + j))) ∧
          (r.dir = 4 → b2.mem.badIn pa n = false →
            (∀ x : TileId, Sparse.wf 0 (s.tile x).mem.bank0 = true ∧ Sparse.wf 0 (s.tile x).mem.bank1 = true) → ∃ v,
            exec (.copyPerform t q) s = .next v ∧ v.mem = b2.mem ∧ v = { b2 with tiles := v.tiles } ∧ ∀ x : TileId,
              v.tile x = (let U : Tile := { (s.tile x) with mem := (v.tile x).mem }; if x = t then moved U else U) ∧
              (¬ inside x → (v.tile x).mem = (s.tile x).mem) ∧
              (inside x → TileMem.WingWrote (s.tile x).mem (v.tile x).mem (r.dst % 2 ^ 10 * 128 + e.off)
                ((List.range n).map fun j => b2.mem.read (pa + j)))) ∧
          (r.dir = 1 → spoiled → ∃ v, exec (.copyPerform t q) s = .next v ∧ v.mem = b2.mem ∧ stopped 7 first v) ∧
          (r.dir = 1 → ¬ spoiled →
            let room : Option MemSys := if l.testBit 7 = true ∧ b2.mem.unbacked pa = true then
              b2.mem.allocate o (Fin.ofNat 8 (l / 2 ^ 52 % 16)) [pa / 128] else some b2.mem
            (room = none → ∃ v, exec (.copyPerform t q) s = .next v ∧ v.mem = b2.mem ∧ stopped 5 (va / 128 * 128 - mva) v) ∧
            (∀ m, room = some m → exec (.copyPerform t q) s =
              .next (((State.writeMem { b2 with mem := m } pa bytes (l.testBit 6)).modMemSys fun m => m.dirty pa (l.testBit 6)).modTile t moved))) ∧
          (r.dir = 5 → (∀ w ∈ b2.mem.wins, w.owner = o → w.bf = r.bf16 →
              w.offset (pa - (e.off - first)) = none ∨ w.offset (pa - (e.off - first) + (last - first) - 1) = none) →
            ∃ v, exec (.copyPerform t q) s = .next v ∧ v.mem = b2.mem ∧ stopped 4 first v) ∧
          (∀ w base, r.dir = 5 → w ∈ b2.mem.wins → w.owner = o → w.bf = r.bf16 → b2.mem.wins.Nodup → Sparse.wf RedElem.zero w.els = true →
            (∀ x ∈ b2.mem.wins, x ≠ w → ¬ (x.owner = w.owner ∧ x.va = w.va) ∧ ∀ j < n, x.offset (pa + j) = none) →
            (∀ j < last - first, w.offset (pa - (e.off - first) + j) = some (base + j)) → (∀ j < n, b2.mem.eff (pa + j) = pa + j) →
            let wd : Nat := if r.bf16 then 2 else 4
            let lo : Nat := base + (e.off - first)
            wd ∣ lo → wd ∣ n → (∀ i, (Sparse.get RedElem.zero w.els i).count ≤ 65536) →
            (spoiled → ∃ v, exec (.copyPerform t q) s = .next v ∧ v.mem = b2.mem ∧ stopped 7 first v) ∧
            (¬ spoiled → ∃ (w' : RedWindow) (flag : Nat → Bool),
              let b3 : State := b2.withMem (b2.mem.backInv pa)
              exec (.copyPerform t q) s = .next (State.modTile { b3 with mem := { b3.mem with wins := b3.mem.wins.map fun x => if x = w then w' else x } } t moved) ∧
              w' = { w with els := w'.els, ovf := w'.ovf } ∧ (w'.ovf = true ↔ w.ovf = true ∨ ∃ j < n / wd, flag j = true) ∧
              (∀ i, i < lo / wd ∨ lo / wd + n / wd ≤ i → Sparse.get RedElem.zero w'.els i = Sparse.get RedElem.zero w.els i) ∧
              ∀ j < n / wd, RedElem.Added w.bexp ((if r.bf16 then fpBf16 else fp32).decode (ofBytes ((bytes.drop (wd * j)).take wd)))
                (Sparse.get RedElem.zero w.els (lo / wd + j)) (Sparse.get RedElem.zero w'.els (lo / wd + j)) (flag j)))))) ∧
    (∀ P, e.done = false → r.dir = 2 → e.off < r.len → T.pad.bind s.pad? = some P → P.tile (s.rank t) = t →
      (∀ f ∈ (s.net t).flits, f.src = s.rank t → f.q = q → T.sceneCycle < f.cycle) →
      T.sceneCycle = r.dst % 2 ^ 16 + e.off / 128 → (e.begun = true ∨ e.entered ≤ T.sceneCycle) →
      let src : List Nat := (List.range 128).map spadAt
      (∀ a ∈ src, a / 8 ∉ T.mem.poison) → exec (.dir2Inject t q) s =
        .next ((s.modTile t (head [{ e with off := e.off + 128, begun := true }])).takeFlit P
          ⟨s.rank t, 0, T.sceneCycle, src.map (Sparse.get 0 T.mem.spad), s.rank t, q, e.serial⟩)) ∧
    (e.done = true →
      (r.cplace = 0 → exec (.copyCompletion t q) s = .next (s.modTile t leaves)) ∧
      (r.cplace = 1 → r.dir ≠ 4 → exec (.copyCompletion t q) s = .next (s.modTile t fun U => leaves (counted t U))) ∧
      (r.cplace = 1 → r.dir = 4 → fits → T.mem.bnd.ocol.toNat + T.mem.bnd.cols.toNat ≤ 24 → T.mem.bnd.orow.toNat + T.mem.bnd.rows.toNat ≤ 16 →
        ∃ v, exec (.copyCompletion t q) s = .next v ∧ v = { s with tiles := v.tiles } ∧ ∀ x : TileId,
          (inside x → v.tile x = (if x = t then leaves (counted x (s.tile x)) else counted x (s.tile x))) ∧
          (¬ inside x → v.tile x = (if x = t then leaves (s.tile x) else s.tile x))) ∧
      (r.cplace = 2 → exec (.copyCompletion t q) s =
        .next ((s.modTile (tileOf (T.mem.bnd.ofRank r.crank)) fun U => { U with mem := U.mem.addCounter r.cidx (BitVec.ofNat 64 gain) }).modTile t leaves)) ∧
      (∀ c, r.cplace = 3 → walked r.cva true true = .stop c → ∃ v, exec (.copyCompletion t q) s = .next v ∧ v.mem = s.mem ∧ stopped 6 r.len v) ∧
      (∀ pa l, r.cplace = 3 → walked r.cva true true = .at_ pa l → l / 2 ^ 52 % 16 ≠ 8 → (s.mem.dom (Fin.ofNat 8 (l / 2 ^ 52))).hold = false → l.testBit 7 = false →
        s.mem.place (s.mem.eff pa) ≠ .host →
        let b : State := s.withMem (s.mem.evictOthers (s.mem.eff pa) o)
        (b.mem.badIn pa 8 = true → ∃ v, exec (.copyCompletion t q) s = .next v ∧ v.mem = b.mem ∧ stopped 7 r.len v) ∧
        (b.mem.badIn pa 8 = false → exec (.copyCompletion t q) s = .next (((b.writeMem pa (bytesOf 8
          (ofBytes ((List.range 8).map fun j => b.mem.read (pa + j)) + gain)) (l.testBit 6)).modMemSys fun m => m.dirty pa (l.testBit 6)).modTile t leaves))))) ∧
  (∀ k v, on → e.work = .add k v →
    exec (.copyCompletion t q) s = .next (s.modTile t fun U => leaves { U with mem := U.mem.addCounter k v })) ∧
  (∀ (P : Paddock) (p : Nat), T.pad = some p → s.pad? p = some P → P.tile (s.rank t) = t →
    let due : Flit → State → Bool := fun f v => f.src == s.rank t && f.q == q && decide (f.cycle ≤ (v.tile t).sceneCycle)
    (∀ v, (v.net t).flits.find? (due · v) = none → ∀ n, State.moveFlits P (s.rank t) q n v = v) ∧
    (∀ v f n, (v.net t).flits.find? (due · v) = some f →
      State.moveFlits P (s.rank t) q (n + 1) v = State.moveFlits P (s.rank t) q n (v.takeFlit P f)) ∧
    let v : State := State.moveFlits P (s.rank t) q 1024 s
    ((∀ x y, (v.tile t).queues[q].head? = some x → x.work = .copy y → y.dir = 2 → (v.tile t).sceneCycle ≠ y.dst % 2 ^ 16 + x.off / 128) →
      exec (.dir2Inject t q) s = .next v)) ∧
  (∀ (P : Paddock) (p : Nat) (f : Flit) (y : CopyEntry) (l : List CopyEntry) (x : Nat), s.pad? p = some P →
    let at_ : TileId := P.tile f.rank
    let src : TileId := P.tile f.src
    let U : Tile := s.tile at_
    U.pad = some p → (s.tile src).pad = some p → s.rank at_ = f.rank → f.rank ∉ P.net.dead →
    (s.tile src).queues[f.q] = y :: l → y.serial = f.serial →
    let v : State := s.takeFlit P f
    let left : List Flit := P.net.flits.erase f
    let used : Nat → PadNet → PadNet := fun d m => { m with used := m.used ++ [(f.rank, d, f.cycle)] }
    let put : CopyEntry → Tile → Tile := fun e V => { V with queues := V.queues.set f.q (e :: l) }
    let drops : Prop := v.tile src = { (s.tile src) with queues := (s.tile src).queues.set f.q (after l (s.tile src)) } ∧ (v.net src).flits = left ∧
      ∃ z, v.faults = s.faults ++ [z] ∧ z.code = 0x22 ∧ z.ctx = some y.ctx
    (s.streamsAt P at_ f.inp f.cycle = [] → drops) ∧
    (s.streamsAt P at_ f.inp f.cycle = [x] → x / 2 ^ 59 % 32 = 16 → (f.rank, 4, f.cycle) ∉ P.net.used →
      f.data.length = 128 → Sparse.wf 0 U.mem.bank0 = true → Sparse.wf 0 U.mem.bank1 = true → ∃ m,
      (if U.mem.bnd.valid then TileMem.WingWrote U.mem m ((x / 2 ^ 14 % 2 ^ 10 + (f.cycle - x / 2 ^ 40 % 2 ^ 16)) * 128) f.data else m = U.mem) ∧
      let b : State := (s.modPad p fun k => { k with net := { (used 4 k.net) with flits := k.net.flits.erase f } }).modTile at_ fun V => { V with mem := m }
      let last : Prop := (∃ c, y.work = .copy c ∧ c.len ≤ y.off) ∧ ∀ z ∈ left, ¬(z.src = f.src ∧ z.q = f.q ∧ z.serial = f.serial)
      (¬ last → v = b) ∧ (last → exec (.copyCompletion src f.q) (b.modTile src (put { y with done := true })) = .next v)) ∧
    (s.streamsAt P at_ f.inp f.cycle = [x] → ∀ d < 5, x / 2 ^ 59 % 32 = (if d = 4 then 16 else 2 ^ (3 - d)) → (f.rank, d, f.cycle) ∈ P.net.used →
      f.rank ∈ (v.net at_).dead ∧ v.tiles = (s.modTile src (put { y with held := true })).tiles ∧ ∃ z, v.faults = s.faults ++ [z] ∧ z.code = 0x23) ∧
    (∀ d < 4, s.streamsAt P at_ f.inp f.cycle = [x] → x / 2 ^ 59 % 32 = 2 ^ (3 - d) → (f.rank, d, f.cycle) ∉ P.net.used →
      (U.mem.bnd.gate.getLsbD (3 - d) = false → drops) ∧
      (U.mem.bnd.gate.getLsbD (3 - d) = true → v = s.modPad p fun k => { k with net := { (used d k.net) with
        flits := k.net.flits.erase f ++ [{ f with rank := s.rank (across at_ d), inp := (d + 2) % 4 + 1, cycle := f.cycle + 1 }] } })))

/-- A FLKADD applied at the rank 0 tile makes its rank a member with its stream, late where the flock has begun and it
was none, a FLKDEL makes it no member; either ends its wait and touches no other flock. A pass whose page translates
at the head of its queue sends its begin event, with first-touch regions claimed, and stops with its cause where it
does not. The begin event takes the snapshot: the members (of a catch-up pass, the late members) in snake order; a
pass marks the flock begun, a catch-up pass clears begun and late. The page read is what memory holds; a half of host
memory that has to be asked for is asked for, a page of a domain that is held waits (log 103), and a page that holds
data in error stops the copy before the event. The page reaching the next rank of the snapshot meets the first row of
R278 that holds: it is dropped with a merge fault of cause 1, 2, 3 or 4 as a record to the stream's context, and the
pass goes on; it stalls, and nothing changes, while the slot is busy or the merge buffer full; or it fills the slot
with its header and bytes, marks it busy, and counts. A pass all of whose ranks are served is over, and its copy
complete. (07_fed.md, 12_attention_by_pages.md, R171, R272, R273, R275, R277, R278) -/
def Obligations.FlocksAndPagePasses : Prop :=
  ∀ (s : State) (p k : Nat) (P : Paddock) (x : Pass) (c : Call) (f : Nat),
  let F : Flock := flockOf P.net.flocks f
  let goes : State → (PadNet → PadNet) → Prop := fun u g => u.pads = s.pads.map fun K => if K.pid = p then { K with net := g K.net } else K
  let at_ : Nat → TileId := fun r => tileOf ((P.orow + r / P.cols) * 24 + P.ocol + r % P.cols)
  let h : TileId := at_ x.rank
  let H : Tile := s.tile h
  let o : OwnerTag := H.mem.bnd.owner
  let hs : List (Nat × Nat) := (List.range (x.len / 64)).map fun i =>
    let va : Nat := x.src + 64 * i
    let f : Nat × Nat := x.frags.getD (va / 2 ^ 16 - x.src / 2 ^ 16) (0, 0)
    (f.1 + va % 2 ^ 16, f.2)
  let free : Nat → Prop := fun lf => lf / 2 ^ 52 % 16 = 8 ∨ (s.mem.dom (Fin.ofNat 8 (lf / 2 ^ 52))).hold = false
  let covers : Prop := (x.src + x.len - 1) / 2 ^ 16 - x.src / 2 ^ 16 < x.frags.length
  s.pad? p = some P → P.image = none →
  (s.calls.find? (fun d => d.id = k && d.pad = p) = some c → ∀ st, c.kind = .flkAdd f st → ∃ u F', exec (.flockEvent p k) s = .next u ∧
    (∃ fl : PadNet → List (Nat × Flock), goes u (fun N => { N with flocks := fl N }) ∧ flockOf (fl P.net) f = F' ∧ ∀ g, g ≠ f → flockOf (fl P.net) g = flockOf P.net.flocks g) ∧
    u.calls = s.calls.filter (fun d => d.id != k) ∧ u.tiles = s.tiles ∧ F'.begun = F.begun ∧
    (∀ r w, (r, w) ∈ F'.member ↔ (r = c.rank ∧ w = st.toFin) ∨ (r ≠ c.rank ∧ (r, w) ∈ F.member)) ∧
    F'.late = if F.begun = true ∧ (F.member.any fun m => m.1 = c.rank) = false then F.late ++ [c.rank] else F.late) ∧
  (s.calls.find? (fun d => d.id = k && d.pad = p) = some c → c.kind = .flkDel f → ∃ u F', exec (.flockEvent p k) s = .next u ∧
    (∃ fl : PadNet → List (Nat × Flock), goes u (fun N => { N with flocks := fl N }) ∧ flockOf (fl P.net) f = F' ∧ ∀ g, g ≠ f → flockOf (fl P.net) g = flockOf P.net.flocks g) ∧
    u.calls = s.calls.filter (fun d => d.id != k) ∧ u.tiles = s.tiles ∧ F'.begun = F.begun ∧
    (∀ r w, (r, w) ∈ F'.member ↔ r ≠ c.rank ∧ (r, w) ∈ F.member) ∧ (∀ r, r ∈ F'.late ↔ r ≠ c.rank ∧ r ∈ F.late)) ∧
  (∀ (t : TileId) (q : Fin 4) (e : CopyEntry) (rest : List CopyEntry) (cu cnt : Bool) (cidx len src seq flk : Nat),
    let T : Tile := s.tile t
    let head : CopyEntry → Tile → Tile := fun y U => { U with queues := U.queues.set q (y :: rest) }
    let pages : List Fragment := (List.range ((src + len - 1) / 2 ^ 16 + 1 - src / 2 ^ 16)).map fun i =>
      let va : Nat := (src / 2 ^ 16 + i) * 2 ^ 16
      match s.mem.walk T.mem.bnd.owner va with
      | .absent => .stop 1 | .format => .fault 0x20 | .owner => .fault 0x21
      | .leaf l large _ =>
        let pa : Nat := l / 2 ^ 16 % 2 ^ 32 * 2 ^ 16 + va % (if large then 2 ^ 29 else 2 ^ 16)
        if l.testBit 2 = false then .stop 2 else if s.mem.place pa = .peer then .stop 3 else .at_ pa l
    T.pad = some p → T.queues[q] = e :: rest → e.stopped = none → e.held = false → T.fenced q.val e.serial = false →
    e.work = .page cu cnt cidx len src seq flk → e.done = false → e.begun = false →
    (∀ frags : List (Nat × Nat), pages = frags.map (fun f => .at_ f.1 f.2) →
      let b : State := frags.foldl (fun v f => if f.2 / 2 ^ 52 % 16 = 8 then (v.firstTouch t (f.1 / 2 ^ 16)).2 else v) s
      exec (.copyPerform t q) s = .next { (b.modTile t (head { e with begun := true })) with
        pads := s.pads.map fun K => if K.pid = p then
          { K with net := { K.net with passes := K.net.passes ++ [⟨s.rank t, q, e.serial, cu, seq, flk, src, len, [], none, frags⟩] } } else K }) ∧
    (∀ (l r : List Fragment) (c : Nat), pages = l ++ .stop c :: r → (∀ f ∈ l, ∃ a y, f = .at_ a y) → ∃ u w, exec (.copyPerform t q) s = .next u ∧
      u.mem = s.mem ∧ u.pads = s.pads ∧ (u.tile t).queues[q] = { e with stopped := some c, off := 0, frag := none } :: rest ∧
      ((u.tile t).ctx e.ctx).records = (T.ctx e.ctx).records ++ [w] ∧ w.code = 0x10 ∧ w.info0.toNat = q.val + 256 * c ∧ w.info1 = 0 ∧
      w.queue = some q)) ∧
  (P.net.passes[k]? = some x → x.left = none → covers →
    let take : PadNet → PadNet := fun N => { N with
      flocks := setFlock N.flocks x.flk (if x.cu then { flockOf N.flocks x.flk with late := [], begun := false } else { flockOf N.flocks x.flk with begun := true }) }
    ((∀ a ∈ hs, s.mem.badIn a.1 64 = false) → (∀ a ∈ hs, free a.2) → (∀ y ∈ s.mem.halves, y.owner = o) →
      (∀ a ∈ hs, s.mem.place (s.mem.eff a.1) ≠ .host ∨ a.2.testBit 6 = true ∨ s.mem.half (s.mem.eff a.1) ≠ none) → ∃ (u : State) (y : Pass),
      exec (.passBegin p k) s = .next u ∧
      goes u (fun N => { (take N) with passes := setAt N.passes k fun z => { z with page := y.page, left := y.left } }) ∧ u.tiles = s.tiles ∧ u.mem = s.mem ∧
      y.page = x.page ++ ((hs.drop (x.page.length / 64)).map fun a => (List.range 64).map fun j => s.mem.read (a.1 + j)).flatten ∧
      y.left = some (((List.range P.rows).flatMap fun r => (List.range P.cols).map fun i => r * P.cols + (if r % 2 = 0 then i else P.cols - 1 - i)).filterMap fun r =>
        if x.cu = true ∧ r ∉ (flockOf P.net.flocks x.flk).late then none
        else ((flockOf P.net.flocks x.flk).member.find? fun m => m.1 = r).map fun m => (r, m.2))) ∧
    (∀ a e rest, a ∈ hs → s.mem.badIn a.1 64 = true → H.queues[x.q] = e :: rest → ∃ u w, exec (.passBegin p k) s = .next u ∧ u.mem = s.mem ∧
      goes u (fun N => { N with passes := N.passes.eraseIdx k }) ∧
      (u.tile h).queues[x.q] = { e with begun := false, stopped := some 7, off := 0, frag := none } :: rest ∧
      ((u.tile h).ctx e.ctx).records = (H.ctx e.ctx).records ++ [w] ∧ w.code = 0x10 ∧ w.info0.toNat = x.q.val + 256 * 7 ∧ w.info1 = 0 ∧
      w.queue = some x.q)) ∧
  (∀ a r, P.net.passes[k]? = some x → x.left ≠ none → x.page.length < x.len → covers → hs.drop (x.page.length / 64) = a :: r →
    let pa : Nat := s.mem.eff a.1
    let b : State := s.withMem (s.mem.evictOthers pa o)
    (¬ free a.2 → exec (.pageLanding p k) s = .next s) ∧
    (free a.2 → b.mem.place pa = .host → b.mem.half pa = none → a.2.testBit 6 = false → (∀ y ∈ b.mem.hreqs, y.half = pa / 64 → y.kind ≠ .rdShared) →
    ∃ d : Fin 8, d.val = a.2 / 2 ^ 52 % 8 ∧ exec (.pageLanding p k) s = .next { b with
      mem := { b.mem with hreqs := b.mem.hreqs ++ [⟨pa / 64, .rdShared, o, d, [.page p x.rank x.serial], false⟩] }
      out := b.out ++ [.cxl .rdShared (pa / 64) []] })) ∧
  (∀ r st rest, P.net.passes[k]? = some x → x.left = some ((r, st) :: rest) → x.len ≤ x.page.length →
    let t : TileId := at_ r
    let T : Tile := s.tile t
    let m : MergeStream := T.streams[st]
    let holds : Bool := T.merges.any fun e => e.stream = st && e.seq = x.seq
    let wide : Prop := 2 ^ m.lsz < x.len + 128
    let full : Prop := m.busy.getD m.nslot none ≠ none ∨ 16 ≤ T.merges.length
    let on : State → Prop := fun u => goes u (fun N => { N with passes := setAt N.passes k fun z => { z with left := some rest } })
    (m.opened = true → m.floor ≤ x.seq → holds = false → ¬ wide → full → exec (.pageLanding p k) s = .next s) ∧
    (m.opened = true → m.floor ≤ x.seq → holds = false → ¬ wide → ¬ full → ∃ u, exec (.pageLanding p k) s = .next u ∧ on u ∧ u.mem = s.mem ∧
      (∀ t', t' ≠ t → u.tile t' = s.tile t') ∧ u.tile t = { T with
        merges := T.merges ++ [⟨st, x.seq, none⟩]
        streams := T.streams.set st { m with busy := setAt m.busy m.nslot (fun _ => some x.seq), nslot := (m.nslot + 1) % 4 }
        mem := (T.mem.engineStore (((List.range (128 + (x.page.take x.len).length)).map fun j => (m.lbase + m.nslot * 2 ^ m.lsz + j) % 2 ^ 20).zip
          (bytesOf 8 x.seq ++ bytesOf 8 x.flk ++ bytesOf 8 x.len ++ bytesOf 8 x.rank ++ List.replicate 96 0 ++ x.page.take x.len))).addCounter m.cidx 1 }) ∧
    (∀ cause, (m.opened = false ∧ cause = 1) ∨ (m.opened = true ∧ x.seq < m.floor ∧ cause = 2) ∨
        (m.opened = true ∧ m.floor ≤ x.seq ∧ holds = true ∧ cause = 3) ∨
        (m.opened = true ∧ m.floor ≤ x.seq ∧ holds = false ∧ wide ∧ cause = 4) → ∃ u w, exec (.pageLanding p k) s = .next u ∧ on u ∧ u.mem = s.mem ∧
      (∀ t', t' ≠ t → u.tile t' = s.tile t') ∧ (u.tile t).mem = T.mem ∧ (u.tile t).merges = T.merges ∧ (u.tile t).streams = T.streams ∧
      w.code = 0x11 ∧ w.isRec = true ∧ w.info0.toNat = cause + 256 * st.val ∧ w.info1.toNat = (x.seq + 65536 * x.flk) % 2 ^ 64 ∧
      (((T.ctx m.ctx).records.filter fun y => y.queue.isNone).length < 16 → ((u.tile t).ctx m.ctx).records = (T.ctx m.ctx).records ++ [w]))) ∧
  (P.net.passes[k]? = some x → x.left = some [] → ∃ u, exec (.passCompletion p k) s = .next u ∧
    goes u (fun N => { N with passes := N.passes.eraseIdx k }) ∧
    u.tile h = { H with queues := H.queues.set x.q (H.queues[x.q].map fun e => if e.serial = x.serial then { e with done := true } else e) })

/-- What is due of a node. Pending, it becomes ready, reading its condition bit, when no order edge of it is undecided
and one is live or it has none, is skipped with its edges dead when all are dead, and else stays, a node in a while
node's body like any other (log 73); ready or skipped, the edits that waited are installed, the last in force. Ready,
a join and a task of another stage complete with their edges live; a conditional or while node of another stage is
skipped; a conditional node completes, the edges of its value's polarity live, the others dead; a while node
completes, a true test its edges of polarity 1 live and those of 0 as they were, a false one the opposite, those of 1
dead. With dsrc 1 it waits for a token, which it takes: of another stage it is skipped; else the edge of the node
named (of several the first, log 77) is live and the polarity the outcome; where there is none, a fault is due and it
waits on. A running node completes once its task has ended and its condition words are applied. A while node tested
true is ready again once its body is over, the body pending and its edges undecided. A prompter cycle in which nothing
halts the prompter dispatches the lowest ready task of the stage with an idle context in its mask to the lowest of
them: at its entry with its argument and number, s0 to s7 clear, loop stack empty, running; where a dependence source
is neither complete nor skipped the prompter halts with fault 0x24 instead. A condition-word write reaching rank 0
changes the word at every tile and no other word, in whatever order the writes arrive (log 44); a token is queued at
every tile when all have room, one that names no waiting node is discarded with a fault 0x25. (01_described.md,
05_issued.md, 06_scalar_and_control.md, R19, R20, R21, R23, R118, R119, R120, R121, R122) -/
def Obligations.NodesAndConditionWords : Prop :=
  ∀ (s : State) (t : TileId) (p k : Nat) (P : Paddock),
  (∀ (old acc : Prompter) (net : PadNet) (rank stage j flt : Nat) (n : GNode), old.nodes[j]? = some n → acc.nodes[j]? = some n →
    let r : Prompter := (old.due net rank stage (acc, flt) j).1
    let faults : Nat := (old.due net rank stage (acc, flt) j).2
    let es : List EdgeSt := (old.orderIn n).map fun e => e.2.st
    let part : Bool := n.smask.testBit stage
    let bit : GNode → Option Bool := fun m =>
      if (m.kind = 1 ∨ m.kind = 2) ∧ m.dsrc = false then some ((acc.cond[m.cword]).getLsbD m.cbit) else none
    let becomes : (GNode → Prop) → Prop := fun f => (∃ m, r.nodes[j]? = some m ∧ f m) ∧ ∀ i, i ≠ j → r.nodes[i]? = acc.nodes[i]?
    let edges : (Nat → GEdge → EdgeSt) → Prop := fun f => ∀ (i : Nat) (e : GEdge), acc.edges[i]? = some e →
      r.edges[i]? = some (if e.from_ = j ∧ e.order = true then { e with st := f i e } else e)
    let completes : Prop := becomes fun m => m = { n with st := .complete, ended := false }
    let skips : Prop := (becomes fun m => m.st = .skipped) ∧ edges fun _ _ => .dead
    (n.st = .pending → .undecided ∈ es → r = acc) ∧
    (n.st = .pending → .undecided ∉ es → es = [] ∨ .live ∈ es → r.edges = acc.edges ∧ becomes fun m => m.st = .ready ∧ m.dec = bit m ∧ m.edit = [] ∧
      (n.edit = [] → m = { n with st := .ready, dec := m.dec }) ∧ ∀ l e, n.edit = l ++ [e] → (m.w0, m.w1, m.w2) = e.2) ∧
    (n.st = .pending → .undecided ∉ es → es ≠ [] → .live ∉ es → skips) ∧
    (n.st = .running → n.ended = true ∧ condwDone net rank j = true → completes ∧ edges fun _ _ => .live) ∧
    (n.st = .running → ¬(n.ended = true ∧ condwDone net rank j = true) → r = acc) ∧
    (n.st = .ready → n.kind = 0 → part = true → r = acc) ∧
    (n.st = .ready → (n.kind = 0 ∧ part = false) ∨ n.kind = 3 → completes ∧ edges fun _ _ => .live) ∧
    (n.st = .ready → n.kind = 1 ∨ n.kind = 2 → n.dsrc = false → part = false → skips) ∧
    (∀ v, n.st = .ready → n.kind = 1 → n.dsrc = false → part = true → n.dec = some v →
      (becomes fun m => m = { n with st := .complete, dec := none }) ∧ edges fun _ e => if e.pol = v then .live else .dead) ∧
    (∀ v, n.st = .ready → n.kind = 2 → n.dsrc = false → part = true → n.dec = some v →
      (becomes fun m => m = { n with st := .complete, dec := none, again := v }) ∧
      edges fun _ e => if v = true then (if e.pol = true then .live else e.st) else if e.pol = true then .dead else .live) ∧
    (n.st = .ready → n.kind = 1 ∨ n.kind = 2 → n.dsrc = true → (∀ x ∈ acc.tokens, x.1 ≠ j) → r = acc ∧ faults = flt) ∧
    (∀ l g x, n.st = .ready → n.kind = 1 ∨ n.kind = 2 → n.dsrc = true → acc.tokens = l ++ (j, g) :: x → (∀ y ∈ l, y.1 ≠ j) →
      let named : Nat → Prop := fun i => ∃ G e, old.nodes[g]? = some G ∧ (i, e) ∈ old.orderIn G ∧ e.from_ = j
      r.tokens = l ++ x ∧ (part = false → skips ∧ faults = flt) ∧
      (part = true → (∀ i, ¬ named i) → r.nodes = acc.nodes ∧ r.edges = acc.edges ∧ faults = flt + 1) ∧
      (∀ i e, (old.edges.map GEdge.rec_ = acc.edges.map GEdge.rec_) → part = true → named i → (∀ i', named i' → i ≤ i') → old.edges[i]? = some e → faults = flt ∧
        (n.kind = 1 → (becomes fun m => m = { n with st := .complete, dec := none }) ∧ edges fun i' _ => if i' = i then .live else .dead) ∧
        (n.kind = 2 → (becomes fun m => m = { n with st := .complete, dec := none, again := e.pol }) ∧
          edges fun i' y => if i' = i then .live else if e.pol = true ∧ y.pol = false then y.st else .dead))) ∧
    (n.st = .complete → n.kind = 2 → n.again = true →
      let bodyEnded : Prop := ∀ i g, j < i → i ≤ j + n.blen → old.nodes[i]? = some g → g.st = .skipped ∨ (g.st = .complete ∧ ¬(g.kind = 2 ∧ g.again = true))
      (¬ bodyEnded → r = acc) ∧
      (bodyEnded → (∃ m, r.nodes[j]? = some m ∧ m = { n with st := .ready, dec := bit n }) ∧
        (∀ i g, acc.nodes[i]? = some g → i ≠ j → ∃ m, r.nodes[i]? = some m ∧ if j < i ∧ i ≤ j + n.blen then m.st = .pending ∧ m.edit = [] else m = g) ∧
        ∀ (i : Nat) (e : GEdge), acc.edges[i]? = some e → r.edges[i]? = some
          (if e.order = true ∧ ((j < e.from_ ∧ e.from_ ≤ j + n.blen) ∨ (e.from_ = j ∧ e.pol = true)) then { e with st := .undecided } else e))) ∧
    (n.st = .complete → ¬(n.kind = 2 ∧ n.again = true) → r = acc) ∧ (n.st = .skipped → r = acc)) ∧
  (∀ pr, let T : Tile := s.tile t
    let idle : GNode → Fin 4 → Prop := fun n c => n.cmask.testBit c.val = true ∧ (T.ctx c).sel = .idle ∧ (T.ctx c).flight = []
    let mayRun : GNode → Prop := fun n => n.st = .ready ∧ n.kind = 0 ∧ n.smask.testBit T.stage.toNat = true
    let waits : GNode → Nat → Prop := fun n i => ∃ e g, e ∈ pr.incoming n ∧ e.2.dependence = true ∧ e.2.from_ = i ∧ pr.nodes[i]? = some g ∧
      g.st ≠ .complete ∧ g.st ≠ .skipped
    T.pr.step (s.net t) (s.rank t) T.stage.toNat = (pr, 0) →
    let v : State := { s with tiles := s.tiles.set t { T with pr := pr } }
    (pr.halted = true ∨ T.stopReq = true ∨ (∀ n ∈ pr.nodes, mayRun n → ∀ c, ¬ idle n c) → exec (.prompterCycle t) s = .next v) ∧
    ∀ j n c, pr.halted = false → T.stopReq = false → pr.nodes[j]? = some n → j < 256 → mayRun n → idle n c → (∀ c', c' < c → ¬ idle n c') →
      (∀ i g, i < j → pr.nodes[i]? = some g → mayRun g → ∀ c', ¬ idle g c') →
      ((∀ i, ¬ waits n i) → ∃ u, exec (.prompterCycle t) s = .next u ∧
        (u.tile t).pr.nodes[j]? = some { n with st := .running } ∧ (u.tile t).pr.edges = pr.edges ∧
        ((u.tile t).ctx c).pc = n.entry ∧ ((u.tile t).ctx c).arg = n.w2 ∧ ((u.tile t).ctx c).node.toNat = j ∧ ((u.tile t).ctx c).sel = .ready ∧
        ((u.tile t).ctx c).bank = { (T.ctx c).bank with s := 0, loops := [] } ∧ (u.tile t).mem = T.mem ∧
        ∀ d, d ≠ c → (u.tile t).ctx d = T.ctx d) ∧
      (∀ i, waits n i → (∀ i', waits n i' → i ≤ i') → ∃ u f, exec (.prompterCycle t) s = .next u ∧
        u.tile t = { T with pr := { pr with halted := true } } ∧ u.faults = s.faults ++ [f] ∧ f.code = 0x24 ∧ f.pad = T.pad ∧
        f.info0 = BitVec.ofNat 64 j ∧ f.info1 = BitVec.ofNat 64 i)) ∧
  (∀ m, s.pad? p = some P → P.image = none → P.net.condw[k]? = some m → ∃ u, exec (.condwApply p k) s = .next u ∧
    (∃ Q, u.pad? p = some Q ∧ Q.net = { P.net with condw := P.net.condw.eraseIdx k }) ∧
    ∀ x : TileId, (u.tile x).mem = (s.tile x).mem ∧ (u.tile x).ctxs = (s.tile x).ctxs ∧ ∀ w : Fin 64, (u.tile x).pr.cond[w] =
      if (s.tile x).pad = some p ∧ w = m.word then
        (match m.op with | .set => m.v | .or => (s.tile x).pr.cond[w] ||| m.v | .clr => (s.tile x).pr.cond[w] &&& ~~~m.v)
      else (s.tile x).pr.cond[w]) ∧
  (∀ n v rest t0 ts, s.pad? p = some P → P.image = none → P.net.tokens = (n, v) :: rest → s.padTiles p = t0 :: ts →
    let waits : Bool := match (s.tile t0).pr.nodes[n]? with | some g => (g.kind == 1 || g.kind == 2) && g.dsrc | none => false
    (waits = true → (∀ x ∈ t0 :: ts, (s.tile x).pr.tokens.length < 16) → ∃ u, exec (.tokenArrival p) s = .next u ∧
      (∃ Q, u.pad? p = some Q ∧ Q.net = { P.net with tokens := rest }) ∧
      ∀ x : TileId, (u.tile x).pr.tokens = if (s.tile x).pad = some p then (s.tile x).pr.tokens ++ [(n, v)] else (s.tile x).pr.tokens) ∧
    (waits = false → ∃ u f, exec (.tokenArrival p) s = .next u ∧ u.tiles = s.tiles ∧ u.faults = s.faults ++ [f] ∧ f.code = 0x25 ∧ f.ctx = none ∧
      ∃ Q, u.pad? p = some Q ∧ Q.net = { P.net with tokens := rest }))

/-- The oldest e5 entry not yet sent, when no fence holds it and, for BAR, every earlier access of its context is
performed, is sent: an arrival or contribution on its way to rank 0, or a scene arrival. One that reaches rank 0 and
agrees opens an instance or joins the open one; one that differs from the first of its instance, or with which a
broadcast is full and has no entry of its root, ends the instance, whose entries are discarded with the collective
fault of causes 1 to 4. A barrier all of whose stages' tiles have arrived completes. A full reduction writes every
participant's vd, lane by lane: of one contribution that itself; of more, for integers the exact sum wrapped or, with
sat, clipped, or the largest or smallest in the order that u selects, for floats the exact sum rounded once to
nearest, the canonical NaN for a NaN or mixed infinities and an infinity for one, or the largest or smallest lane that
is a number. A full broadcast writes the root's vector. Either ends its entries. REDOPEN's request lands 2 where a
page has no leaf or lacks a right or the range leaves the address space, else 3 where one is not in device memory,
else 1 where a window lies there, the owner has 8 or storage is short (the order is log 40), else 0, and opens the
window. REDCLOSE's lands the overflow flag and removes the window, each element of the range reading its sum rounded
once, or 2 where there is none. A status for x0 is dropped. When every tile of the paddock may swap, each changes
banks, counts its scene and starts its cycles from 0, what cycle 0 injects coming next. (13_synchronised.md, R222,
R233, R292, R295, R296, R297, R298, R300, R301, R302, R304) -/
def Obligations.CollectivesAtWork : Prop :=
  ∀ (s : State) (t : TileId) (p k : Nat) (P : Paddock) (e : E5Entry),
  let T : Tile := s.tile t
  let N : PadNet := P.net
  let goes : State → (PadNet → PadNet) → Prop := fun u g => u.pads = s.pads.map fun K => if K.pid = p then { K with net := g K.net } else K
  let at_ : Nat → TileId := fun r => tileOf ((P.orow + r / P.cols) * 24 + P.ocol + r % P.cols)
  let gone : State → NetMsg → Prop := fun u m => ∀ x ∈ (u.tile (at_ m.rank)).e5, x.serial ≠ m.serial
  let summed : Ty → ScanOp → Bool → Bool → List VReg → VReg → Prop := fun y o w sat vs v =>
    (∀ a, vs = [a] → v = a) ∧ (vs.length ≠ 1 → ∀ j < 2048 / y.bits,
      let lane : VReg → BitVec y.bits := fun a => a.extractLsb' (j * y.bits) y.bits
      let r : BitVec y.bits := lane v
      let F : FFmt := tyFmt y
      let num : BitVec y.bits → Val := fun a => F.decode a.toNat
      let val : BitVec y.bits → Int := fun a => if w then (a.toNat : Int) else a.toInt
      let lo : Int := if w then 0 else -(2 ^ (y.bits - 1) : Nat)
      let hi : Int := if w then (2 ^ y.bits : Nat) - 1 else (2 ^ (y.bits - 1) : Nat) - 1
      let all : Int := (vs.map fun a => val (lane a)).sum
      let key : BitVec y.bits → Int := fun a =>
        if a.getLsbD (y.bits - 1) then -((a.toNat : Int) - 2 ^ (y.bits - 1)) - 1 else a.toNat
      (y.isInt = true →
        (o = .add → r = BitVec.ofInt y.bits (if sat then (if all < lo then lo else if hi < all then hi else all) else all)) ∧
        (o ≠ .add → (∃ a ∈ vs, r = lane a) ∧ ∀ a ∈ vs, if o = .max then val (lane a) ≤ val r else val r ≤ val (lane a))) ∧
      (y.isInt = false →
        (o = .add →
          let bad : Prop := (∃ a ∈ vs, (num (lane a)).isNan = true) ∨ (∃ a ∈ vs, num (lane a) = .inf false) ∧ ∃ a ∈ vs, num (lane a) = .inf true
          let q : Rat := (vs.map fun a => (num (lane a)).rat).sum
          (bad → r.toNat = F.qnan) ∧ (¬ bad → ∀ a ∈ vs, (num (lane a)).isInf = true → r.toNat = F.infCode (num (lane a)).sign) ∧
          ((∀ a ∈ vs, (num (lane a)).isFin = true) →
            (q = 0 → r.toNat = F.signed (decide (∀ a ∈ vs, (num (lane a)).rat = 0 ∧ (num (lane a)).sign = true)) 0) ∧
            (q ≠ 0 → F.Rounded .rne q r.toNat))) ∧
        (o ≠ .add →
          ((∀ a ∈ vs, (num (lane a)).isNan = true) → r = BitVec.ofNat y.bits F.qnan) ∧
          ((∃ a ∈ vs, (num (lane a)).isNan = false) → (∃ a ∈ vs, (num (lane a)).isNan = false ∧ r = lane a) ∧
            ∀ a ∈ vs, (num (lane a)).isNan = false → if o = .max then key (lane a) ≤ key r else key r ≤ key (lane a)))))
  let differ : E5Work → E5Work → Nat → Prop := fun x y c =>
    (∃ i a b i' a' b', x = .bar i a b ∧ y = .bar i' a' b' ∧ (a ≠ a' ∨ b ≠ b') ∧ c = 4) ∨
    (∃ g y₁ o w f d v n g' y₂ o' w' f' d' v' n', x = .netred g y₁ o w f d v n ∧ y = .netred g' y₂ o' w' f' d' v' n' ∧
      (n ≠ n' ∧ c = 1 ∨ n = n' ∧ (y₁, o, w, f) ≠ (y₂, o', w', f') ∧ c = 2)) ∨
    (∃ g y₁ d v r n g' y₂ d' v' r' n', x = .netbc g y₁ d v r n ∧ y = .netbc g' y₂ d' v' r' n' ∧
      (n ≠ n' ∧ c = 1 ∨ n = n' ∧ y₁ ≠ y₂ ∧ c = 2 ∨ n = n' ∧ y₁ = y₂ ∧ r ≠ r' ∧ c = 3))
  let arrival : NetKey → Nat → Instr := fun key k =>
    match key with | .bar _ => .barArrival p k | .red _ => .netredContribution p k | .bc _ => .netbcContribution p k
  let opcode : NetKey → Nat := fun key => match key with | .bar _ => 0x0C | .red _ => 0x0E | .bc _ => 0x0F
  let failed : State → NetKey → Nat → List NetMsg → Prop := fun u key c l => ∀ y ∈ l, gone u y ∧
    ∀ x, (s.tile (at_ y.rank)).e5.find? (fun x => x.serial = y.serial) = some x → (∀ i v, x.work ≠ .add i v) →
      ((s.tile (at_ y.rank)).ctx x.ctx).records.length + l.length ≤ 16 →
      ∃ w ∈ ((u.tile (at_ y.rank)).ctx x.ctx).records, w.code = 0x12 ∧ w.isRec = true ∧ w.info0.toNat = opcode key + 256 * c ∧ w.info1 = 0 ∧ w.entry = some y.serial
  let lands : State → E5Entry → Fin 32 → Nat → Prop := fun u e d v => (∀ y ∈ (u.tile t).e5, y.serial ≠ e.serial) ∧
    (∀ x, x ≠ t → u.tile x = s.tile x) ∧ (∀ c, c ≠ e.ctx → (u.tile t).ctx c = T.ctx c) ∧
    ∀ r : Fin 32, ((u.tile t).ctx e.ctx).bank.x[r] = if r = d ∧ d ≠ 0 then BitVec.ofNat 64 v else (T.ctx e.ctx).bank.x[r]
  s.pad? p = some P → P.image = none →
  (T.pad = some p → T.e5.find? (fun x => !x.sent) = some e → T.fenced 5 e.serial = false → T.e5Ready e = true →
    let sent : Tile → Tile := fun U => { U with e5 := U.e5.map fun x => if x.serial = e.serial then { x with sent := true } else x }
    ((∃ a b c, e.work = .bar a b c) ∨ (∃ g y o u f d v n, e.work = .netred g y o u f d v n) ∨ (∃ g y d v r n, e.work = .netbc g y d v r n) →
      ∃ u, exec (.e5EntrySend t) s = .next u ∧ u.tiles = (s.modTile t sent).tiles ∧ goes u fun M => { M with arrivals := M.arrivals ++ [⟨s.rank t, e.serial, e.work⟩] }) ∧
    (e.work = .scene → (∀ m ∈ N.scenes, m.rank ≠ s.rank t) → ∃ u Q m, exec (.e5EntrySend t) s = .next u ∧ u.tiles = (s.modTile t sent).tiles ∧ u.pad? p = some Q ∧
      Q.net = { N with scenes := N.scenes ++ [m] } ∧ m.rank = s.rank t ∧ m.work = .scene) ∧
    ((∃ d v l b x, e.work = .redopen d v l b x) ∨ (∃ d v, e.work = .redclose d v) → exec (.e5EntrySend t) s = .next (s.modTile t sent))) ∧
  (∀ m key l, N.arrivals[k]? = some m → netKey m.work = some key → (∀ g ∈ l, g.rootless = false) →
    ((∀ g ∈ N.gathered, g.key = key → g.full = true) ∧ l = N.gathered ++ [⟨key, [m]⟩]) ∨
      (∃ a g b f r, N.gathered = a ++ g :: b ∧ (∀ x ∈ a, x.key = key → x.full = true) ∧ g.key = key ∧ g.full = false ∧ g.entries = f :: r ∧
        (∀ c, ¬ differ f.work m.work c) ∧ l = a ++ { g with entries := g.entries ++ [m] } :: b) →
    (∀ K ∈ s.pads, K.pid = p → K = P) →
    ∃ u, exec (arrival key k) s = .next u ∧ u.tiles = s.tiles ∧ goes u fun M => { M with arrivals := M.arrivals.eraseIdx k, gathered := l }) ∧
  (∀ m key a g b f r c, N.arrivals[k]? = some m → netKey m.work = some key → N.gathered = a ++ g :: b →
    (∀ x ∈ a, x.key = key → x.full = true) → g.key = key → g.full = false → g.entries = f :: r → differ f.work m.work c →
    ∃ u, exec (arrival key k) s = .next u ∧ (goes u fun M => { M with arrivals := M.arrivals.eraseIdx k, gathered := a ++ b }) ∧
      failed u key c (g.entries ++ [m])) ∧
  (∀ m a b es f grp y₁ d v root n, N.arrivals[k]? = some m → netKey m.work = some (.bc grp) →
    (es ≠ [] ∧ N.gathered = a ++ ⟨.bc grp, es⟩ :: b ∨ es = [] ∧ b = [] ∧ N.gathered = a) → (∀ x ∈ a, x.key = .bc grp → x.full = true) →
    (∀ x ∈ a ++ b, x.rootless = false) → (es ++ [m]).head? = some f → f.work = .netbc grp y₁ d v root n → n = es.length + 1 →
    (∀ c, ¬ differ f.work m.work c) → (∀ x ∈ es ++ [m], x.rank ≠ root) →
    ∃ u, exec (.netbcContribution p k) s = .next u ∧ (goes u fun M => { M with arrivals := M.arrivals.eraseIdx k, gathered := a ++ b }) ∧
      failed u (.bc grp) 3 (es ++ [m])) ∧
  (∀ id g r a b c, N.gathered.find? (fun x => x.key = .bar id) = some g → g.entries.map NetMsg.work = .bar a b c :: r →
    (∀ x : TileId, (s.tile x).pad = some p → (s.tile x).inStages c = true → ∃ m ∈ g.entries, m.rank = s.rank x) →
    (∀ m ∈ N.arrivals, netKey m.work ≠ some (.bar id)) → ∃ u, exec (.barCompletion p id) s = .next u ∧
    goes u (fun M => { M with gathered := M.gathered.erase g }) ∧ (∀ m ∈ g.entries, gone u m) ∧
    ∀ x : TileId, (∀ m ∈ g.entries, at_ m.rank ≠ x) → u.tile x = s.tile x) ∧
  (∀ grp g f r y o w sa d v, N.gathered.find? (fun x => x.key = .red grp && x.full) = some g → g.entries = f :: r → netredOf f.work = some (y, o, w, sa, d, v) →
    ∃ u, exec (.netredResult p grp) s = .next u ∧ goes u (fun M => { M with gathered := M.gathered.erase g }) ∧
    ∃ v' : VReg, summed y o w sa (g.entries.filterMap fun m => (netredOf m.work).map fun x => x.2.2.2.2.2) v' ∧
    ∀ m ∈ g.entries, gone u m ∧ ∀ x z, (s.tile (at_ m.rank)).e5.find? (fun x => x.serial = m.serial) = some x → netredOf m.work = some z →
      ((u.tile (at_ m.rank)).ctx x.ctx).bank.v[z.2.2.2.2.1] = v') ∧
  (∀ grp g v, N.gathered.find? (fun x => x.key = .bc grp && x.full) = some g →
    (∃ a m b d, g.entries = a ++ m :: b ∧ netbcOf m.work = some (d, v, m.rank) ∧ ∀ x ∈ a, ∀ z, netbcOf x.work = some z → x.rank ≠ z.2.2) →
    ∃ u, exec (.netbcResult p grp) s = .next u ∧ goes u (fun M => { M with gathered := M.gathered.erase g }) ∧
    ∀ m ∈ g.entries, gone u m ∧ ∀ x z, (s.tile (at_ m.rank)).e5.find? (fun x => x.serial = m.serial) = some x → netbcOf m.work = some z →
      ((u.tile (at_ m.rank)).ctx x.ctx).bank.v[z.1] = v) ∧
  (∀ id d va len bf b, T.e5.find? (fun x => x.serial = id && x.sent) = some e → e.work = .redopen d va len bf b →
    let o : OwnerTag := T.mem.bnd.owner
    let n : Nat := (va + len - 1) / 2 ^ 16 + 1 - va / 2 ^ 16
    let leaf : Nat → Option (Nat × Nat) := fun k =>
      let a : Nat := (va / 2 ^ 16 + k) * 2 ^ 16
      match s.mem.walk o a with
      | .leaf l large _ => some (l, s.mem.eff (l / 2 ^ 16 % 2 ^ 32 * 2 ^ 16 + a % (if large then 2 ^ 29 else 2 ^ 16)))
      | _ => none
    let pages : List Nat := (List.range n).map fun k => ((leaf k).map fun x => x.2 / 2 ^ 16).getD 0
    let unmapped : Prop := 2 ^ 55 < va + len ∨ ∃ k < n, ∀ l pa, leaf k = some (l, pa) → l.testBit 2 = false ∨ l.testBit 3 = false
    let elsewhere : Prop := ∃ k < n, ∃ l pa, leaf k = some (l, pa) ∧ s.mem.place pa ≠ .device
    let meets : Prop := ∃ k < len / 128, ∃ w ∈ s.mem.wins, ∃ i, let a : Nat := (va + 128 * k) % 2 ^ 16
      w.pages[i]? = some (pages.getD ((va + 128 * k) / 2 ^ 16 - va / 2 ^ 16) 0) ∧ w.va ≤ (w.va / 2 ^ 16 + i) * 2 ^ 16 + a ∧
      (w.va / 2 ^ 16 + i) * 2 ^ 16 + a < w.va + w.len
    let short : Prop := 8 ≤ (s.mem.wins.filter fun x => x.owner = o).length ∨
      2 ^ 24 < (s.mem.wins.map fun x => (if x.bf then 8 else 4) * x.len).sum + (if bf then 8 else 4) * len
    let answers : Nat → MemSys → Prop := fun st m => ∃ u, exec (.windowOpen t id) s = .next u ∧ u.mem = m ∧ lands u e d st
    (unmapped → answers 2 s.mem) ∧ (¬ unmapped → elsewhere → answers 3 s.mem) ∧
    (¬ unmapped → ¬ elsewhere → meets ∨ short → answers 1 s.mem) ∧
    (¬ unmapped → ¬ elsewhere → ¬ meets → ¬ short → answers 0 { s.mem with wins := s.mem.wins ++ [⟨o, va, len, bf, b, pages, [], false⟩] })) ∧
  (∀ id d va, T.e5.find? (fun x => x.serial = id && x.sent) = some e → e.work = .redclose d va →
    let find : Option RedWindow := s.mem.wins.find? fun w => w.owner = T.mem.bnd.owner && w.va = va
    (find = none → ∃ u, exec (.windowClose t id) s = .next u ∧ u.mem = s.mem ∧ lands u e d 2) ∧
    ∀ w, find = some w →
      let pa : Nat → Nat := fun k => w.pages.getD ((va + k) / 2 ^ 16 - va / 2 ^ 16) 0 * 2 ^ 16 + (va + k) % 2 ^ 16
      let size : Nat := if w.bf then 2 else 4
      let F : FFmt := if w.bf then fpBf16 else fp32
      ∃ u, exec (.windowClose t id) s = .next u ∧ lands u e d (if w.ovf then 1 else 0) ∧
        u.mem.wins.map (fun x => (x.owner, x.va)) = (s.mem.wins.filter fun x => !(x.owner == w.owner && x.va == va)).map (fun x => (x.owner, x.va)) ∧
        (Memory.wf s.mem = true → Sparse.wf 0 s.mem.tags = true → va % 128 = 0 → w.len % 128 = 0 → 0 < w.len → w.pages.Nodup →
          w.pages.length = (va + w.len - 1) / 2 ^ 16 + 1 - va / 2 ^ 16 →
          (∀ g ∈ w.pages, s.mem.place (g * 2 ^ 16) = .device ∧ ∀ f < 2 ^ 23, (s.mem.fot.toNat + f) / 2 ^ 16 ≠ g) →
          (s.mem.wins.Pairwise fun w x => w.owner ≠ x.owner ∨ w.va ≠ x.va) → (∀ x ∈ s.mem.wins, x ≠ w → ∀ k < w.len, x.offset (pa k) = none) →
          (∀ a, (∀ k < w.len, s.mem.eff a ≠ pa k) → u.mem.read a = s.mem.read a) ∧
          ∀ i < w.len / size, let z : RedElem := Sparse.get RedElem.zero w.els i
            ∃ v, (∀ j < size, u.mem.read (pa (size * i + j)) = BitVec.ofNat 8 (v / 2 ^ (8 * j))) ∧ (z.poison = true → v = F.qnan) ∧
              (z.poison = false → z.acc = 0 → v = 0) ∧ (z.poison = false → z.acc ≠ 0 → F.Rounded .rne (z.acc * 2 ^ (w.bexp - 64)) v))) ∧
  (s.mayswap p = true → ∃ u, exec (.sceneSwap p) s = .next u ∧ goes u (fun M => { M with scenes := [], used := [] }) ∧
    ∀ x : TileId, if (s.tile x).pad = some p then
        (u.tile x).mem.stage1 = !(s.tile x).mem.stage1 ∧ (u.tile x).mem.bank0 = (s.tile x).mem.bank0 ∧ (u.tile x).mem.bank1 = (s.tile x).mem.bank1 ∧
        (u.tile x).scene = (s.tile x).scene + 1 ∧ (u.tile x).sceneCycle = 0 ∧ (u.tile x).ctxs = (s.tile x).ctxs ∧
        (∀ z ∈ (u.tile x).e5, ¬(z.sent = true ∧ z.work = .scene)) ∧ ∀ q ∈ (u.tile x).injections, .dir2Inject x q ∈ u.agenda
      else u.tile x = s.tile x)

/-- A notify sets the wake bit of a bound slot and makes its counter waits, and those of its queue (log 53), read
again. A thread that is free takes the packet next in the queue's innermost open buffer, else, awake, the packet at
its next index: at an empty ring header it reads the counter waits whose counters have reached their values, and
sleeps where there is none; a header that does not translate, a reserved kind, a nonzero reserved field, an indirect
packet at level 3, a kind 0 inside a buffer, and a misaligned or untranslatable address halt the queue with err 6, 1,
2, 3, 4, 5 or 6 and the packet's ring index, and send vector 0 of the physical function (of several errors the first
in that order of checks is reported, which is the model's choice, log 50); a launch that breaks a range is refused
with its record; any other packet is held. What is read in host memory is first held in halves (R293). A packet taken
begins once its barrier is met, a launch once it is placed, unless its function is being reset (R53): its ring word is
cleared and, with what is owed written back (R287), the read index written, or its buffer is left one packet shorter,
and it runs under its number. Then INDIRECT opens its buffer, COUNTER_WAIT, when it is to read, is done once its
counter has reached its value, COUNTER_ADD adds and NO_OP is done at once, KILL marks the oldest-begun launch of its
queue and tag with status 0x10, or is done where there is none, one already under its kill keeping its status, and a
GRAPH_EDIT of the oldest-begun running launch of its queue and tag waits at each node of each replica and extends the
attestation (R84), but is discarded with a warning where it passes the node count or breaks R22; one without a launch,
which one under its kill is not for it, is kept with the queue in the order of packets (both log 83, the model's
choice). A packet that is done leaves, its counter at sig gains 1 and its vector is sent. (01_described.md,
02_launched.md, R23, R39, R40, R41, R42, R43, R44, R45, R46, R365) -/
def Obligations.PacketsAreTakenAndBegin : Prop :=
  ∀ (s : State) (n : SlotId) (k : Nat) (r : Running),
  let q : QueueSlot := s.slots[n]
  let id : QueueId := ⟨q.owner, q.cb, q.base⟩
  let all : List Running := s.slots.toList.flatMap fun x => x.running
  let F : List Word → Nat → Nat → Nat := fun ws off len => (ws.getD (off / 8) 0).toNat / 2 ^ (8 * (off % 8)) % 2 ^ (8 * len)
  let kind : List Word → Nat := fun ws => F ws 0 1
  let slot : (QueueSlot → QueueSlot) → State → State := fun f u => { u with slots := u.slots.set n (f u.slots[n]) }
  let ran : (Running → Running) → QueueSlot → QueueSlot := fun f x => { x with running := x.running.map fun y => if y.k = k then f y else y }
  let done : State → State := slot (ran fun y => { y with done := true })
  let warned : State → State := slot fun x => { x with warn := true }
  let runs : Nat → Prop := fun j => q.running.find? (fun y => y.k = k && pkKind y.words == j && !y.done) = some r
  let m : MemSys := s.mem
  let o : OwnerTag := q.owner
  let src : Option Buffer := s.buffers.find? fun b => b.queue == id && b.left != 0
  let va : Nat := match src with | some b => b.va | none => q.base.toNat + q.next % 2 ^ q.lsize.toNat * 128
  let idx : Nat := match src with | some b => b.idx | none => q.next
  let level : Nat := match src with | some b => b.level | none => 0
  let parent : Option Nat := match src with | some b => some b.k | none => none
  let H : State := s.holdVa o va 128
  let ws : List Word := (List.range 16).map fun i => BitVec.ofNat 64 (ofBytes (((H.mem.readVa o va 128).drop (8 * i)).take 8))
  let free : Prop := q.bound = true ∧ q.halted = false ∧ q.taken = none ∧ (s.drovers[n]).halted = false ∧ (s.fns[q.fnId]).resetting = false ∧
    (∀ y ∈ all, y.queue = id → pkKind y.words = 3 → y.opened = true) ∧ (src = none → q.wake = true)
  let here : Prop := m.mapped o true false va 128 = true
  let w0 : Nat := F ws 0 8
  let body : Nat := if kind ws = 1 then 0x60 else if kind ws = 2 ∨ kind ws = 3 then 0x1C else if kind ws = 4 ∨ kind ws = 5 then 0x20 else 0x10
  let clean : Prop := w0 / 2 ^ 14 % 4 = 0 ∧ w0 / 2 ^ 28 % 16 = 0 ∧ w0 / 2 ^ 9 % 4 ≠ 3 ∧ w0 / 2 ^ 11 % 4 ≠ 3 ∧
    (∀ b, body ≤ b → b < 128 → F ws b 1 = 0) ∧ (kind ws = 1 → F ws 0x22 2 / 2 ^ 11 % 16 = 0)
  let checks : List (Nat × Nat × Nat × Bool × Bool) := (if F ws 8 8 = 0 then [] else [(F ws 8 8, 8, 8, true, true)]) ++
    (if kind ws = 1 then [(F ws 0x10 8, 64, 0, false, false), (F ws 0x18 8, 0x10000, 0, false, false), (F ws 0x58 8, 8, 128, false, true)]
    else if kind ws = 2 then [(F ws 0x10 8, 32, 32 * F ws 0x1A 2, true, false)]
    else if kind ws = 3 then [(F ws 0x10 8, 128, 128 * F ws 0x18 4, true, false)]
    else if kind ws = 4 then [(F ws 0x10 8, 8, 8, true, false)]
    else if kind ws = 5 then [(F ws 0x10 8, 8, 8, true, true)] else [])
  let passes : Nat × Nat × Nat × Bool × Bool → Prop := fun c => c.1 % c.2.1 = 0 ∧ H.mem.mapped o c.2.2.2.1 c.2.2.2.2 c.1 c.2.2.1 = true
  let halted : State → Nat → Prop := fun u e => exec (.packetTake n) s = .next
    { (slot (fun x => { x with halted := true, err := BitVec.ofNat 5 e, epkt := BitVec.ofNat 64 idx }) u) with
      out := u.out ++ if (s.fns[(0 : Fin 17)]).masked then [] else [.msix 0 0] }
  let halts : Nat → Prop := halted H
  let good : Prop := 1 ≤ kind ws ∧ kind ws ≤ 7 ∧ clean ∧ ¬(kind ws = 3 ∧ 3 ≤ level)
  let refusal : Option Nat :=
    if kind ws ≠ 1 then none
    else if F ws 0x20 1 = 0 ∨ 24 < F ws 0x20 1 ∨ F ws 0x21 1 = 0 ∨ 16 < F ws 0x21 1 ∨ 256 < F ws 0x24 2 ∨ 64 < F ws 0x26 2 then some 5
    else if 65536 < F ws 0x3C 4 then some 7
    else if 65536 < F ws 0x38 4 ∨ F ws 0x38 4 % 8 ≠ 0 then some 8 else none
  let waiting : List (SlotId × Running) := (List.finRange 64).flatMap fun i => ((s.slots[i]).running.filter fun y =>
    pkKind y.words == 4 && !y.done && (i == n || y.queue == id)).map fun y => (i, y)
  let looks : List (SlotId × Running) → State → State := fun l u => { u with
    agenda := (l.map fun x => Instr.counterWait x.1 x.2.k) ++ u.agenda
    slots := Vector.ofFn fun i => { u.slots[i] with running := (u.slots[i]).running.map fun y =>
      if ∃ x ∈ l, x.1 = i ∧ x.2.k = y.k then { y with look := true } else y } }
  let reached : MemSys → Running → Bool := fun m y =>
    m.mapped y.owner true false (F y.words 0x10 8) 8 && decide (F y.words 0x18 8 ≤ m.word y.owner (F y.words 0x10 8))
  let W : State := waiting.foldl (fun u x => u.holdVa x.2.owner (F x.2.words 0x10 8) 8) H
  let ready : List (SlotId × Running) := waiting.filter fun x => reached W.mem x.2
  (∀ f page, s.dev.ready = true → s.pageSlot f page = some n → (s.fns[q.fnId]).resetting = false →
    exec (.notify f page) s = .next (looks waiting (slot (fun x => { x with wake := true }) s))) ∧
  (free → ¬ here → halted s 6) ∧
  (free → here → src = none → kind ws = 0 → exec (.packetTake n) s = .next
    (if ready = [] then slot (fun x => { x with wake := false }) W else looks ready W)) ∧
  (free → here → 8 ≤ kind ws → halts 1) ∧
  (free → here → 1 ≤ kind ws → kind ws ≤ 7 → ¬ clean → halts 2) ∧
  (free → here → clean → kind ws = 3 → 3 ≤ level → halts 3) ∧
  (free → here → src ≠ none → kind ws = 0 → halts 4) ∧
  (∀ l c x, free → here → good → checks = l ++ c :: x → (∀ y ∈ l, passes y) →
    (c.1 % c.2.1 ≠ 0 → halts 5) ∧ (c.1 % c.2.1 = 0 → H.mem.mapped o c.2.2.2.1 c.2.2.2.2 c.1 c.2.2.1 = false → halts 6)) ∧
  (free → here → good → (∀ c ∈ checks, passes c) →
    (refusal = none → exec (.packetTake n) s = .next (slot (fun x => { x with taken := some ⟨s.serial, id, ws, idx, level, parent, none, 0⟩ })
      { H with serial := s.serial + 1 })) ∧
    (∀ st, refusal = some st → H.mem.mapped o false true (F ws 0x58 8) 128 = true → ∃ u, exec (.packetTake n) s = .next u ∧
      u.mem = (H.writeVa o (F ws 0x58 8) (recordBytes st ⟨st, 0, 0, 0, 0⟩ 0 0 0)).mem ∧ u.tiles = s.tiles ∧
      u.slots[n] = { q with taken := some ⟨s.serial, id, ws, idx, level, parent, some st, 0⟩, hist := (⟨pkTag ws, o, st, 0⟩ :: q.hist).take 16 })) ∧
  (∀ t, q.taken = some t → q.halted = false →
    let met : Prop := pkBarrier t.words = false ∨ ∀ y ∈ all, y.queue = t.queue → y.k ∈ ancestors all 4 t.parent
    let launch : Prop := pkKind t.words = 1 ∧ t.refused = none
    let placed : Option Paddock := s.pads.find? fun p => p.k = t.k && p.phase = .loading
    (¬ met ∨ launch ∧ placed = none ∨ (s.fns[q.fnId]).resetting = true → exec (.packetBegin n) s = .next s) ∧
    ∀ target, met → (s.fns[q.fnId]).resetting = false → (∀ y ∈ q.running, y.k ≠ t.k) → (¬ launch ∧ target = none) ∨ (launch ∧ ∃ p, placed = some p ∧ target = some p.pid) → ∃ u,
      exec (.packetBegin n) s = .next u ∧
      u.slots[n] = { q with
        taken := none
        next := if t.level = 0 then t.idx + 1 else q.next
        running := q.running ++ [⟨t.k, t.queue, q.fnId, t.words, t.idx, t.level, t.parent, target, false, decide (t.refused ≠ none), decide (pkKind t.words = 4)⟩] } ∧
      u.agenda = (if pkKind t.words = 4 then [Instr.counterWait n t.k] else []) ++ s.agenda ∧ u.tiles = s.tiles ∧ u.pads = s.pads ∧
      (t.level = 0 → u.buffers = s.buffers ∧
        u.mem = (((s.writeVa o (q.base.toNat + t.idx % 2 ^ q.lsize.toNat * 128) (bytesOf 8 0)).writeBacks o).writeVa o (q.cb.toNat + 0x80) (bytesOf 8 (t.idx + 1))).mem) ∧
      (t.level ≠ 0 → u.mem = s.mem ∧ u.buffers = s.buffers.map fun b => if t.parent = some b.k then { b with va := b.va + 128, left := b.left - 1 } else b)) ∧
  (runs 3 → r.opened = false → exec (.indirect n k) s = .next (slot (ran fun y => { y with opened := true })
    { s with buffers := ⟨r.queue, k, F r.words 0x10 8, F r.words 0x18 4, r.level + 1, r.idx⟩ :: s.buffers })) ∧
  (runs 4 → (r.look = false → exec (.counterWait n k) s = .next s) ∧
    (r.look = true →
      let h : State := State.holdVa (slot (ran fun y => { y with look := false }) s) r.owner (F r.words 0x10 8) 8
      exec (.counterWait n k) s = .next (if reached h.mem r then done h
        else if h.mem.mapped r.owner true false (F r.words 0x10 8) 8 then h else warned h))) ∧
  (runs 5 →
    (m.mapped r.owner true true (F r.words 0x10 8) 8 = true → exec (.counterAdd n k) s =
      .next (done (s.writeVa r.owner (F r.words 0x10 8) (bytesOf 8 (m.word r.owner (F r.words 0x10 8) + F r.words 0x18 8))))) ∧
    (m.mapped r.owner true true (F r.words 0x10 8) 8 = false → exec (.counterAdd n k) s = .next (done (warned s)))) ∧
  (runs 7 → exec (.noOp n k) s = .next (done s)) ∧
  (runs 6 → r.target = none →
    let named : Paddock → Prop := fun p => p.queue = r.queue ∧ pkTag p.pkt = pkTag r.words ∧ ∃ y ∈ all, y.target = some p.pid ∧ pkKind y.words = 1
    ((∀ p ∈ s.pads, ¬ named p) → exec (.kill n k) s = .next (done s)) ∧
    ∀ p ∈ s.pads, named p → (∀ y ∈ s.pads, named y → y ≠ p → p.k < y.k) → ∃ u, exec (.kill n k) s = .next u ∧
      u = { (slot (ran fun y => { y with target := some p.pid }) s) with
        pads := s.pads.map fun x => if x.pid = p.pid ∧ x.killed = none then { x with killed := some ⟨0x10, 0, 0, 0, 0⟩, phase := .killing } else x }) ∧
  (runs 2 → ∀ c h, c = F r.words 0x1A 2 → h = s.holdVa r.owner (F r.words 0x10 8) (32 * c) → 1 ≤ c → c ≤ 16 → h.mem.mapped r.owner true false (F r.words 0x10 8) (32 * c) = true →
    (∀ p ∈ s.pads, p.queue = r.queue → pkTag p.pkt = pkTag r.words → p.killed = none → ∀ y ∈ all, y.target = some p.pid → pkKind y.words ≠ 1) →
    ∃ recs, (∀ l x, s.kept = l ++ x → (∀ y ∈ l, y.k ≤ k) → (∀ y, x.head? = some y → k < y.k) →
        exec (.graphEdit n k) s = .next (done { h with kept := l ++ ⟨k, r.queue, pkTag r.words, recs⟩ :: x })) ∧ recs.length = c ∧
      ∀ i < c, recs[i]? = some (F r.words 0x18 2 + i, (List.range 4).map fun j =>
        BitVec.ofNat 64 (ofBytes (((h.mem.readVa r.owner (F r.words 0x10 8) (32 * c)).drop (32 * i + 8 * j)).take 8)))) ∧
  (runs 2 → ∀ c h p, c = F r.words 0x1A 2 → h = s.holdVa r.owner (F r.words 0x10 8) (32 * c) → 1 ≤ c → c ≤ 16 →
    h.mem.mapped r.owner true false (F r.words 0x10 8) (32 * c) = true → (s.pads.map (·.pid)).Nodup → p.tiles.Nodup →
    (∀ i, p.image = some i → i.tiles.length = p.cols * p.rows ∧ 1 ≤ i.tiles.length) →
    let named : Paddock → Prop := fun p => p.queue = r.queue ∧ pkTag p.pkt = pkTag r.words ∧ p.killed = none ∧ ∃ y ∈ all, y.target = some p.pid ∧ pkKind y.words = 1
    p ∈ s.pads → named p → (∀ y ∈ s.pads, named y → y ≠ p → p.k < y.k) →
    let first : Nat := F r.words 0x18 2
    let recs : List (Nat × List Word) := (List.range c).map fun i => (first + i, (List.range 4).map fun j =>
      BitVec.ofNat 64 (ofBytes (((h.mem.readVa r.owner (F r.words 0x10 8) (32 * c)).drop (32 * i + 8 * j)).take 8)))
    let pr : Prompter := match p.image with | some i => (i.tiles.head?.map (·.pr)).getD Prompter.empty | none => (s.tile (p.tile 0)).pr
    let nodes : List GNode := (pr.edited.zip (List.range pr.edited.length)).map fun y =>
      match recs.find? (fun x => x.1 = y.2) with | some x => GNode.of (x.2.getD 0 0) (x.2.getD 1 0) (x.2.getD 2 0) | none => y.1
    let refused : Prop := pr.nodes.length < first + c ∨ (∃ x ∈ recs, x.2.getD 3 0 ≠ 0) ∨ graphOk nodes pr.edges p.code.msize = false
    let edits : List GNode → List GNode := fun l => (l.zip (List.range l.length)).map fun y =>
      match recs.find? (fun x => x.1 = y.2) with
      | some x => { y.1 with edit := y.1.edit ++ [(k, x.2.getD 0 0, x.2.getD 1 0, x.2.getD 2 0)] }
      | none => y.1
    let waits : Tile → Tile := fun T => { T with pr := { T.pr with nodes := edits T.pr.nodes } }
    let digest : BitVec 256 := Config.sm3 (recs.flatMap fun x => x.2.flatMap fun w => bytesOf 8 w.toNat)
    (p.phase = .loading → exec (.graphEdit n k) s = .next h) ∧
    (p.phase ≠ .loading → refused → exec (.graphEdit n k) s = .next (done (warned h))) ∧
    (p.phase ≠ .loading → ¬ refused → ∃ u, exec (.graphEdit n k) s = .next u ∧ u.mem = h.mem ∧ u.kept = s.kept ∧ u.slots = (done h).slots ∧
      (∀ x, u.tile x = if p.image = none ∧ x ∈ p.tiles then waits (s.tile x) else s.tile x) ∧
      u.pads = s.pads.map fun K => if K.pid = p.pid then { K with
        attest := Config.sm3 (bytesOf 32 K.attest.toNat ++ bytesOf 32 digest.toNat), edits := K.edits ++ [⟨k, r.queue, pkTag r.words, recs⟩]
        image := K.image.map fun i => { i with tiles := i.tiles.map waits } } else K)) ∧
  (q.running.find? (fun y => y.k = k) = some r →
    ((pkKind r.words = 1 ∨ pkKind r.words = 6) ∧ (r.done = true ∨ ∃ p, r.target = some p ∧ ∀ x ∈ s.pads, x.pid ≠ p)) ∨
      (pkKind r.words = 3 ∧ r.opened = true ∧ (∀ b ∈ s.buffers, b.k = r.k → b.left = 0) ∧ (∀ y ∈ all, y.parent ≠ some r.k) ∧
        ∀ (i : SlotId) t, (s.slots[i]).taken = some t → t.parent ≠ some r.k) ∨
      (pkKind r.words ≠ 1 ∧ pkKind r.words ≠ 3 ∧ pkKind r.words ≠ 6 ∧ r.done = true) →
    let b : State := if F r.words 0 8 / 2 ^ 11 % 4 = 2 then s.writeBacks r.owner else s
    (F r.words 8 8 = 0 ∨ b.mem.mapped r.owner true true (F r.words 8 8) 8 = true) → pkMsi r.words = false ∨ pkVec r.words < vectors r.fn →
    ∃ u, exec (.packetCompletion n k) s = .next u ∧
    u.slots[n] = { q with running := q.running.filter (fun y => y.k != k) } ∧ u.buffers = s.buffers.filter (fun x => x.k != k) ∧
    (F r.words 8 8 ≠ 0 → u.mem = (b.writeVa r.owner (F r.words 8 8) (bytesOf 8 (b.mem.word r.owner (F r.words 8 8) + 1))).mem) ∧
    (F r.words 8 8 = 0 → u.mem = b.mem ∧
      u.out = b.out ++ (if pkMsi r.words = true ∧ (s.fns[r.fn]).masked = false then [.msix r.fn.val (pkVec r.words)] else [])))

/-- The origin found for a shape is the free one of lowest row, then column. A placement of one waiting launch gives
its tiles to its paddock there; a round's end clears every use and counts a round to what waits curtained. A launch
that loader time goes to is loaded, or refused with the status of the step that fails (1 where its container does not
translate), its paddock gone; it starts once the accesses that stood when its pages were marked are over (log 97,
deduced), its tiles its own and their contexts at the launch values. A curtain stops every context but the running
ones, and waits while a domain is held (log 103). Once every tile has stopped and drained, the image is saved, held as
its tiles (log 60), and the tiles are free; resumed from the green room, each tile goes on at its rank's new place
with its storage and contexts, its store refilled, and what its scene's cycle injects is injected (R299). A kill
discards what its tiles had to do, none of it performed in its step (log 63), and the write-backs that its owner's
stores owe are done (R287); its record ends the launch, with the attestation of what was loaded (R84). A launch all of
whose nodes and contexts are over ends with status 0 when it is quiet, what its tiles hold staying, and is killed with
0x12 when a record or a stopped copy is left. (02_launched.md, 03_placed.md, 04_fetched.md, 15_interrupted.md,
16_retired.md, R50, R59, R82, R167, R329, R335, R338) -/
def Obligations.LaunchesRunAndEnd : Prop :=
  ∀ (s : State) (p : Nat) (P : Paddock),
  let ended : State → Nat → Prop := fun u st => (∀ K ∈ u.pads, K.pid ≠ p) ∧
    ∃ a, (u.slots[P.slot]).hist.head? = some ⟨pkTag P.pkt, P.owner, st, a⟩
  (∀ free cols rows c r, findOrigin free cols rows = some (c, r) → c + cols ≤ 24 ∧ r + rows ≤ 16 ∧ (∀ t ∈ rectangle c r cols rows, free t = true) ∧
    ∀ c' r', (r' < r ∧ c' + cols ≤ 24) ∨ (r' = r ∧ c' < c) → ∃ t ∈ rectangle c' r' cols rows, free t = false) ∧
  (∀ us w t c r, (s.countUse us).waiters = [w] → w.pad = none → (s.slots[w.slot]).taken = some t →
    findOrigin s.tileFree w.cols w.rows = some (c, r) → ∃ u K, exec (.placement us) s = .next u ∧
    u.pads = (s.pads.map fun x => { x with part := false }) ++ [K] ∧ K.queue = t.queue ∧ K.k = t.k ∧ K.slot = w.slot ∧
    K.pid = s.serial ∧ K.phase = .loading ∧ K.owner = t.queue.owner ∧ K.ocol = c ∧ K.orow = r ∧ K.cols = w.cols ∧ K.rows = w.rows ∧
    K.pkt = t.words ∧ u.mem = s.mem ∧ ∀ x ∈ rectangle c r w.cols w.rows, (u.tile x).pad = some K.pid ∧ (u.tile x).mem.lastOwner = some K.owner ∧
      ((s.tile x).mem.lastOwner ≠ some K.owner → (u.tile x).mem.spad = [] ∧ (u.tile x).mem.store = [] ∧ (u.tile x).mem.bank0 = [] ∧ (u.tile x).mem.bank1 = [])) ∧
  (∃ u, exec .roundBoundary s = .next u ∧ u.tiles = s.tiles ∧ u.mem = s.mem ∧
    ∀ f : Fin 17, u.fns[f] = { s.fns[f] with use := Vector.replicate 64 0, left := [] }) ∧
  (∃ u, exec .roundBoundary s = .next u ∧
    u.pads = s.pads.map fun x => { x with waited := if x.phase = .curtained then x.waited + 1 else x.waited, part := true }) ∧
  (s.pad? p = some P →
    (∀ l, P.phase = .loading → P.loaded = some l →
      let waited : Prop := ∀ x ∈ l.wait, ∀ a ∈ (s.tile x.1).accs, a.id = x.2 → ∀ y ∈ a.pieces, y.done = true
      (¬ waited → exec (.launch p) s = .next s) ∧
      (waited → ∃ u, exec (.launch p) s = .next u ∧
        u.pads = (s.pads.map fun K => if K.pid = p then { K with
          phase := .running, attest := l.attest, code := l.code, late := l.late, net := PadNet.empty, loaded := none } else K) ∧
        ∀ x ∈ P.tiles, (u.tile x).pad = some p ∧ (u.tile x).mem.bnd.owner = P.owner ∧ (u.tile x).mem.store = (s.tile x).mem.store ∧
          (u.tile x).pr.nodes = l.nodes ∧ (u.tile x).pr.edges = l.edges ∧ ∀ c : Fin 4, (u.tile x).ctx c = Ctx.launch)) ∧
    (P.phase = .loading → P.loaded = none → (s.nextLoad ≠ some p → exec (.launch p) s = .next s)) ∧
    (P.phase = .loading → P.loaded = none → s.nextLoad = some p →
      (∀ v, s.load P = .ok v → exec (.launch p) s = exec (.launch p) v) ∧
      (∀ st l, s.load P = .error (st, l) → ∃ u, exec (.launch p) s = .next u ∧ ended u st) ∧
      ((s.holdHeader P).mem.mapped P.owner true false (pkF P.pkt 0x10 8) 1 = false → ∃ u, exec (.launch p) s = .next u ∧ ended u 1)) ∧
    (P.phase = .running → (∃ d : Fin 8, (s.mem.doms[d]).hold = true) → exec (.curtain p) s =
      .next { s with pads := s.pads.map fun K => if K.pid = p then { K with due := true } else K }) ∧
    (P.phase = .running → (∀ d : Fin 8, (s.mem.doms[d]).hold = false) → ∃ u, exec (.curtain p) s = .next u ∧ (∀ K ∈ u.pads, K.pid = p → K.phase = .curtaining) ∧
      ∀ x ∈ P.tiles, (u.tile x).stopReq = true ∧ (u.tile x).run = (s.tile x).run ∧
        ((∀ e ∈ (s.tile x).mq, e.begun = none) → (u.tile x).mem = (s.tile x).mem ∧ (u.tile x).mq = (s.tile x).mq ∧
          ∀ c : Fin 4, ((u.tile x).ctx c).bank = ((s.tile x).ctx c).bank) ∧
        ∀ c : Fin 4, ((u.tile x).ctx c).sel =
          if ((s.tile x).ctx c).sel = .idle ∨ (s.tile x).run = some c then ((s.tile x).ctx c).sel else .stopped) ∧
    (P.phase = .curtaining → (∀ x ∈ P.tiles, s.drained p x = true) → s.greenUsed + imageUnits P.tiles.length ≤ greenUnits s.mem.mode →
      ∃ u, exec (.greenRoomSave p) s = .next u ∧ (∀ x ∈ P.tiles, (u.tile x).pad = none) ∧
      ∃ K i, u.pad? p = some K ∧ K.phase = .curtained ∧ K.image = some i ∧ i.tiles.length = P.tiles.length ∧ i.frames = [] ∧ K.curtains = P.curtains + 1) ∧
    (∀ i c r m w, s.waiters.find? (fun y => (findOrigin s.tileFree y.cols y.rows).isSome) = some w → w.pad = some p → P.phase = .curtained → P.image = some i → i.frames = [] → i.tiles.length = P.cols * P.rows →
      findOrigin s.tileFree P.cols P.rows = some (c, r) → (s.holdVa P.owner P.code.va P.code.msize).refill P = some m → ∃ u K, exec (.resume p) s = .next u ∧ u.pad? p = some K ∧
      K = { P with ocol := c, orow := r, phase := .running, image := none, waited := 0, part := true } ∧
      ∀ k T, i.tiles[k]? = some T → (u.tile (K.tile k)).pad = some p ∧ (u.tile (K.tile k)).mem.spad = T.mem.spad ∧ (u.tile (K.tile k)).mem.store = m ∧
        (∀ q ∈ (u.tile (K.tile k)).injections, .dir2Inject (K.tile k) q ∈ u.agenda) ∧
        (u.tile (K.tile k)).stopReq = false ∧ (u.tile (K.tile k)).mem.bnd = K.boundary k ∧
        ∀ x : Fin 4, ((u.tile (K.tile k)).ctx x).bank = (T.ctx x).bank ∧ ((u.tile (K.tile k)).ctx x).pc = (T.ctx x).pc) ∧
    (P.phase = .killing → P.image = none → ∃ u, exec (.killSequence p) s = .next u ∧ (∀ K ∈ u.pads, K.pid = p → K.phase = .killed) ∧ u.mem = (s.writeBacks P.owner).mem ∧
      ∀ x ∈ P.tiles, (u.tile x).run = none ∧ (u.tile x).accs = [] ∧ (u.tile x).mq = [] ∧ (u.tile x).e5 = [] ∧
        (∀ q : Fin 4, (u.tile x).queues[q] = []) ∧ ∀ c : Fin 4, ((u.tile x).ctx c).sel = .stopped) ∧
    (∀ i, P.phase = .killed → P.killed = some i → ∃ u, exec (.killRecord p) s = .next u ∧ ended u i.status ∧
      (u.slots[P.slot]).hist.head?.map (·.attest) = some ((P.loaded.map (·.attest)).getD P.attest)) ∧
    (P.phase = .running → P.image = none → (∀ x ∈ P.tiles, (s.tile x).ended = true) →
      ((∀ x ∈ P.tiles, (s.tile x).unhandled = false ∧ (s.tile x).quiet = true) → ∃ u, exec (.launchCompletion p) s = .next u ∧ ended u 0 ∧
        (s.mem.converting = none → ∀ x ∈ P.tiles, (u.tile x).pad = none ∧ (u.tile x).mem = { (s.tile x).mem with bnd := Boundary.reset } ∧ (u.tile x).scene = (s.tile x).scene ∧
          ∀ c : Fin 4, ((u.tile x).ctx c).bank = ((s.tile x).ctx c).bank)) ∧
      ((∃ x ∈ P.tiles, (s.tile x).unhandled = true) → exec (.launchCompletion p) s =
        .next { s with pads := s.pads.map fun K => if K.pid = p then K.kill ⟨0x12, 0, 0, 0, 0⟩ else K })))

/-- A standing request of a running paddock is answered in its register, its wait over; while a reset of its function
runs every system call is answered with 0xFF..01. A page request is answered with 0 once a leaf maps the page; a
late-frame call with 0 for a page already converted or converted now into the newest frame of the pool (of the owner's
first paddock that has one, the model's choice, log 110), with 0xFF..03 without one, and 0xFF..04 for any other page;
a grant with 0xFF..04 in the cases of R364 and else with 0, the lowest free frames granted in order and their level-1
leaves written with the owner, domain and frame; a call the drover does not know with 0xFF..02, while one numbered
0x1000 or more goes to an enabled proxy ring, when it has room, under the function's next call number, its word 0 last
and after the write-backs owed (R287), the ring's indices being read in halves held for it (R293), and is answered by
the proxy's reply. RSV is answered with 0 and its units added, the owner the most recent, 1 where they do not fit, 2
in a domain without slices; UNRSV with 0 and its units taken away, every unbacked line of the owner in the domain
dropped at 0, with 1 where a slice holds too many lines, 2 as RSV, and 3 beyond what is reserved. A migration moves an
unbacked page's lines to the new domain while no paddock of the owner runs and the quota there takes them.
(02_launched.md, 03_placed.md, 06_scalar_and_control.md, 08_access_and_copy.md, R52, R53, R80, R81, R154, R192, R353,
R364) -/
def Obligations.RequestsAreServed : Prop :=
  ∀ (s : State) (id : Nat) (c : Call) (P : Paddock),
  let t : TileId := P.tile c.rank
  let F : Fn := s.fns[P.fn]
  let a : Nat → Nat := fun k => (c.args.getD k 0).toNat
  let answered : State → Word → Prop := fun u v => u.calls = s.calls.filter (fun k => k.id != id) ∧
    (c.d ≠ 0 → ((u.tile t).ctx c.c).bank.x[c.d] = v) ∧ ((u.tile t).ctx c.c).bank.v = ((s.tile t).ctx c.c).bank.v ∧
    (u.tile t).mem = (s.tile t).mem ∧ ∀ x, x ≠ t → u.tile x = s.tile x
  let num : Nat → Prop := fun n => ∃ m : BitVec 16, c.kind = .sysc m ∧ m.toNat = n
  s.calls.find? (fun k => k.id = id) = some c → s.pad? c.pad = some P → P.image = none → c.id = id →
  (F.resetting = true →
    (num 1 → ∃ u, exec (.pageRequest id false) s = .next u ∧ answered u 0xFFFFFFFFFFFFFF01) ∧
    (num 2 → ∃ u, exec (.lateFrame id) s = .next u ∧ answered u 0xFFFFFFFFFFFFFF01) ∧
    (num 3 → ∃ u, exec (.apertureGrant id) s = .next u ∧ answered u 0xFFFFFFFFFFFFFF01) ∧
    (∀ n, num n → n = 0 ∨ 4 ≤ n → ∃ u, exec (.forwardedCall id) s = .next u ∧ answered u 0xFFFFFFFFFFFFFF01)) ∧
  (F.resetting = false → num 1 → ((∃ e l p, s.mem.walk P.owner (a 0) = .leaf e l p) → ∃ u, exec (.pageRequest id false) s = .next u ∧ answered u 0 ∧ u.mem = s.mem) ∧
    ((∀ e l p, s.mem.walk P.owner (a 0) ≠ .leaf e l p) → exec (.pageRequest id false) s = .next s ∧
      ∃ u, exec (.pageRequest id true) s = .next u ∧ answered u 0xFFFFFFFFFFFFFF04 ∧ u.mem = s.mem)) ∧
  (F.resetting = false → num 2 → ∀ e p, s.mem.walk P.owner (a 0) = .leaf e false p →
    let f : Nat := (e / 2 ^ 16 % 2 ^ 32 * 2 ^ 16 - 2 ^ 39) / 2 ^ 16
    (e.testBit 7 = false → ∃ u, exec (.lateFrame id) s = .next u ∧ answered u 0xFFFFFFFFFFFFFF04 ∧ u.mem = s.mem) ∧
    (e.testBit 7 = true → (∃ pa, (f, pa) ∈ s.mem.late) → ∃ u, exec (.lateFrame id) s = .next u ∧ answered u 0 ∧ u.mem = s.mem) ∧
    (e.testBit 7 = true → (∀ x ∈ s.mem.late, x.1 ≠ f) → (∀ K ∈ s.pads, K.owner = P.owner → K.late = []) →
      ∃ u, exec (.lateFrame id) s = .next u ∧ answered u 0xFFFFFFFFFFFFFF03 ∧ u.mem = s.mem) ∧
    (∀ K pre post l pa, e.testBit 7 = true → (∀ x ∈ s.mem.late, x.1 ≠ f) → (s.pads.map (·.pid)).Nodup → s.pads = pre ++ K :: post →
      (∀ x ∈ pre, x.owner = P.owner → x.late = []) → K.owner = P.owner → K.late = l ++ [pa] → ∃ u, exec (.lateFrame id) s = .next u ∧
      answered u 0 ∧ u.mem.late = s.mem.late ++ [(f, pa)] ∧ u.pads = pre ++ { K with late := l } :: post ∧ (∀ x ∈ u.mem.lines, x.line * 128 / 2 ^ 16 ≠ 2 ^ 23 + f))) ∧
  (F.resetting = false → num 3 →
    let root : Nat := (s.mem.owners[P.owner.toNat]'P.owner.isLt).root.toNat
    let level1 : Nat → Option Nat := fun v =>
      let i3 : Nat := v / 2 ^ 42 % 2 ^ 13
      let i2 : Nat := v / 2 ^ 29 % 2 ^ 13
      let i1 : Nat := v / 2 ^ 16 % 2 ^ 13
      let e3 : Nat := s.mem.entry root i3
      let t2 : Nat := e3 / 2 ^ 16 % 2 ^ 32
      let e2 : Nat := s.mem.entry t2 i2
      let t1 : Nat := e2 / 2 ^ 16 % 2 ^ 32
      if s.mem.tableOk root i3 && e3.testBit 0 && !e3.testBit 1 && pointerOk e3 && s.mem.tableOk t2 i2 &&
        e2.testBit 0 && !e2.testBit 1 && pointerOk e2 && s.mem.tableOk t1 i1 then some (t1 * 2 ^ 16 + 8 * i1) else none
    let frames : List Nat := ((List.range 1024).filter fun x => !s.mem.grants.any fun g => g.1 == x).take (a 0)
    let bad : Prop := a 0 = 0 ∨ a 1 % 2 ^ 16 ≠ 0 ∨ 2 ^ 55 < a 1 + a 0 * 2 ^ 16 ∨ 7 < a 2 ∨ (s.mem.dom (Fin.ofNat 8 (a 2))).unusable = true ∨
      frames.length < a 0 ∨ ∃ k < a 0, ∀ pa, level1 (a 1 + k * 2 ^ 16) = some pa → (s.mem.read pa).getLsbD 0 = true
    (bad → ∃ u, exec (.apertureGrant id) s = .next u ∧ answered u 0xFFFFFFFFFFFFFF04 ∧ u.mem = s.mem) ∧
    (¬ bad → ∃ u, exec (.apertureGrant id) s = .next u ∧ answered u 0 ∧
      let v : State := (List.range (a 0)).foldl (fun x k => match level1 (a 1 + k * 2 ^ 16), frames[k]? with
        | some pa, some f => x.writeMem pa (bytesOf 8 (P.owner.toNat * 2 ^ 56 + a 2 * 2 ^ 52 + (2 ^ 23 + f) * 2 ^ 16 + 0x8F))
        | _, _ => x) s
      u.mem = { v.mem with grants := v.mem.grants ++ frames.map fun f => (f, P.owner) })) ∧
  (∀ n, F.resetting = false → num n → n = 0 ∨ 4 ≤ n → c.forwarded = none →
    (n < 0x1000 ∨ F.lsize = 0 → ∃ u, exec (.forwardedCall id) s = .next u ∧ answered u 0xFFFFFFFFFFFFFF02 ∧ u.mem = s.mem) ∧
    (0x1000 ≤ n → F.lsize ≠ 0 →
      let h : State := (s.holdVa F.owner F.cb.toNat 8).holdVa F.owner (F.cb.toNat + 0x80) 8
      let w : Nat := h.mem.word F.owner F.cb.toNat
      let full : Prop := (2 ^ F.lsize.toNat : Int) ≤ ((w : Int) - h.mem.word F.owner (F.cb.toNat + 0x80)) % 2 ^ 64
      let at_ : Nat := F.base.toNat + w % 2 ^ F.lsize.toNat * 64
      let v : State := (((h.writeVa F.owner F.cb.toNat (bytesOf 8 (w + 1))).writeVa F.owner (at_ + 8)
        ((n :: (List.range 6).map a).flatMap (bytesOf 8))).writeBacks F.owner).writeVa F.owner at_
          (bytesOf 8 (F.calls % 2 ^ 32 * 2 ^ 32 + P.owner.toNat * 2 ^ 8 + 1))
      (full → exec (.forwardedCall id) s = .next h) ∧
      (¬ full → ∃ u, exec (.forwardedCall id) s = .next u ∧ u.mem = v.mem ∧ (u.fns[P.fn]).calls = F.calls + 1 ∧
      u.calls = s.calls.map fun x => if x.id = id then { x with forwarded := some (F.calls % 2 ^ 32) } else x))) ∧
  (∀ k v, c.forwarded = some k → k < 2 ^ 32 → s.calls.filter (fun x => x.forwarded.isSome) = [c] → ∃ u,
    exec (.fnProxyReply P.fn (BitVec.ofNat 32 k) v) s = .next u ∧ answered u v) ∧
  (∀ n d, c.kind = .rsv n d →
    let raised : MemSys := s.mem.setUnits P.owner d (s.mem.units P.owner d + n)
    let m : MemSys := { raised with rsvs := P.owner :: s.mem.rsvs.filter fun x => x != P.owner }
    ((s.mem.doms[d]).set = 0 → ∃ u, exec (.reservationDecision id) s = .next u ∧ answered u 2 ∧ u.mem = s.mem) ∧
    ((s.mem.doms[d]).set ≠ 0 → m.fits = true → ∃ u, exec (.reservationDecision id) s = .next u ∧ answered u 0 ∧ u.mem = m) ∧
    ((s.mem.doms[d]).set ≠ 0 → m.fits = false → ∃ u, exec (.reservationDecision id) s = .next u ∧ answered u 1 ∧ u.mem = s.mem)) ∧
  (∀ n d, c.kind = .unrsv n d → (s.mem.lines.map UnbLine.line).Nodup →
    let o : OwnerTag := P.owner
    let held : Nat := s.mem.units o d
    let m : MemSys := s.mem.setUnits o d (held - n)
    let mine : UnbLine → Bool := fun x => x.owner == o && x.dom == d
    let lost : Nat → Bool := fun l => s.mem.lines.any fun x => mine x && x.line == l
    let fits : Prop := ∀ j < 64, (s.mem.doms[d]).set.getLsbD j = true → s.mem.inUse o d j ≤ (held - n) * 512 / (s.mem.doms[d]).slices.length
    let answers : Nat → MemSys → Prop := fun st v => ∃ u, exec (.reservationDecision id) s = .next u ∧ answered u (BitVec.ofNat 64 st) ∧ u.mem = v
    ((s.mem.doms[d]).set = 0 → answers 2 s.mem) ∧
    ((s.mem.doms[d]).set ≠ 0 →
      (held < n → answers 3 s.mem) ∧
      (held = n → answers 0 { m with
        lines := s.mem.lines.filter fun x => !mine x
        bytes := s.mem.bytes.filter fun b => !lost (b.1 / 128)
        bad := s.mem.bad.filter fun b => !lost (b / 16) }) ∧
      (n < held → fits → answers 0 m) ∧ (n < held → ¬ fits → answers 1 s.mem))) ∧
  (∀ o va e l p, s.mem.walk o va = .leaf l false p → va < 2 ^ 64 → (∀ K ∈ s.pads, K.owner = o → K.image.isSome = true) → l.testBit 7 = true →
    (s.mem.dom e).unusable = false →
    let moved : List UnbLine := s.mem.lines.map fun x => if x.line * 128 / 2 ^ 16 = l / 2 ^ 16 % 2 ^ 32 ∧ x.owner = o then { x with dom := e } else x
    ({ s.mem with lines := moved } : MemSys).withinQuota o e = true → ∃ u, exec (.migration o (BitVec.ofNat 64 va) e) s = .next u ∧
    u.tiles = s.tiles ∧ u.mem.lines = moved)

/-- Once the device is ready, a bind of a free slot with valid fields sets its fields, makes it awake (log 52) at its
read index, unmasks its function and restarts a halted drover thread (log 71); an invalid one sets err 7 (log 70). An
unmap writes the read index, behind the write-backs it owes (R287), and frees the slot, with a packet taken and not
begun given back; a write of a bound slot's ctl changes priority, and class where it fits, and with bound 0 unmaps it
too. Minima over 64 are ignored; a reclaim unmaps the victim, whatever the class written (log 31), or shows 0xFF. A
change of ways to a mode whose green room is too small is refused, else it is in force, no half entering the cache,
and done with the last page it converts (log 91). While a request of it made before the hold is outstanding a domain
stays held; then retired slices leave it (R343), or it takes its next set and masks, its halves leaving the cache with
their messages, unless the number of slices is no power of two (log 109), and the curtains that waited are due (log
103). Creating a dead owner, 0 too (log 69), draws a fresh key, retiring an unused one erases it; a teardown leaves no
paddock, slot, window, half or unbacked line of the owner; a command of another kind meanwhile is refused (log 92). A
frame of no running owner takes the owner asked for. A reset leaves its function without paddocks, slots and proxy
ring, masked (log 54), its share as it was (log 55), and stands while the proxy ring has no room for its record. Lock,
once set, stays, and fixes the tables' bases. Registers read as they stand, zero where none is listed, and zero until
the device is ready. (02_launched.md, 03_placed.md, R35, R45, R47, R48, R53, R65, R67, R73, R75, R342) -/
def Obligations.RegistersOwnersAndResets : Prop :=
  ∀ (s : State) (n : SlotId) (w : BitVec 64) (o : OwnerTag) (d : Fin 8) (f : Fin 17),
  let q : QueueSlot := s.slots[n]
  let x : QueueSlot := { q with fn := w.extractLsb' 58 5, proc := w.extractLsb' 52 6, cls := w.extractLsb' 50 2, prio := w.extractLsb' 46 4, lsize := w.extractLsb' 41 5, owner := w.extractLsb' 33 8 }
  let valid : Bool := x.fn.toNat < 17 && 4 ≤ x.lsize.toNat && x.lsize.toNat ≤ 16 && (s.mem.owner x.owner).live && s.classFits n x.cls.toNat
  let O : OwnerReg := s.mem.owner o
  let D : Domain := s.mem.doms[d]
  let freed : State → State := fun v =>
    if (List.finRange 8).all fun e => e == d || !(s.mem.doms[e]).hold then
      { v with agenda := ((s.pads.filter (·.due)).map fun P => .curtain P.pid) ++ s.agenda, pads := s.pads.map fun P => { P with due := false } }
    else v
  let may : Nat → Prop := fun op => s.dev.ownCmd = none ∨ s.dev.ownCmd = some (op, o)
  let marked : Bool := s.dev.ownCmd.isSome && s.dev.ownRefused
  let room : State → Prop := fun v =>
    let F : Fn := s.fns[f]
    let h : State := (v.holdVa F.owner F.cb.toNat 8).holdVa F.owner (F.cb.toNat + 0x80) 8
    F.lsize = 0 ∨ ((h.mem.word F.owner F.cb.toNat : Int) - h.mem.word F.owner (F.cb.toNat + 0x80)) % 2 ^ 64 < (2 ^ F.lsize.toNat : Nat)
  let owner : OwnerTag := if s.dev.ownCmd = none then o else s.dev.ownOwner
  let reset : State → Fin 17 → Prop := fun u g => (∀ P ∈ u.pads, P.fn ≠ g) ∧ (∀ k : SlotId, (u.slots[k]).bound = true → (u.slots[k]).fnId ≠ g) ∧
    (u.fns[g]).lsize = 0 ∧ (u.fns[g]).cb = 0 ∧ (u.fns[g]).resetting = false ∧ (u.fns[g]).masked = true ∧ (u.fns[g]).share = (s.fns[g]).share
  (s.dev.ready = true →
    (q.bound = false → valid = true → let h : State := s.holdVa x.owner (x.cb.toNat + 0x80) 8
      ∃ u, exec (.slotBind n w) s = .next u ∧ u.slots[n] = { x with bound := true, halted := false, err := 0, wake := true, next := h.mem.word x.owner (x.cb.toNat + 0x80), taken := none } ∧
      (u.fns[x.fnId]).masked = false ∧ u.mem = h.mem ∧ (u.drovers[n]).halted = false ∧ ∀ k, k ≠ n → u.slots[k] = s.slots[k]) ∧
    (q.bound = false → valid = false → ∃ u, exec (.slotBind n w) s = .next u ∧ u.slots[n] = { x with err := 7 } ∧ u.mem = s.mem ∧ u.fns = s.fns) ∧
    (q.bound = true → w.getLsbD 63 = true → ∃ u, exec (.slotCtlUpdate n w) s = .next u ∧ u.mem = s.mem ∧ (u.slots[n]).prio = x.prio ∧
      (u.slots[n]).owner = q.owner ∧ (u.slots[n]).fn = q.fn ∧
      (x.cls ≠ q.cls → (s.classFits n x.cls.toNat = true → (u.slots[n]).cls = x.cls) ∧
        (s.classFits n x.cls.toNat = false → (u.slots[n]).cls = q.cls ∧ (u.slots[n]).err = 7))) ∧
    (∀ u, q.bound = true → w.getLsbD 63 = false → exec (.slotCtlUpdate n (w ||| 1#64 <<< 63)) s = .next u →
      exec (.slotCtlUpdate n w) s = exec (.slotUnmap n) u) ∧
    (exec (.devClsMin w) s = .next (if 64 < (w.extractLsb' 0 8).toNat + (w.extractLsb' 8 8).toNat + (w.extractLsb' 16 8).toNat + (w.extractLsb' 24 8).toNat then s
      else { s with dev := { s.dev with clsMin := w.setWidth 32 } })) ∧
    (∀ c, (s.victim = none → exec (.devReclaim c) s = .next { s with dev := { s.dev with victim := 0xFF } }) ∧
      ∀ v, s.victim = some v → ∃ u, exec (.devReclaim c) s = .next u ∧ u.dev.victim.toNat = v.val ∧ (u.slots[v]).bound = false) ∧
    (w.setWidth 2 ≠ s.mem.mode → greenUnits (w.setWidth 2) < s.greenUsed → ∃ u, exec (.devSlcMode w) s = .next u ∧ u.dev.slcRefused = true ∧ u.mem = s.mem) ∧
    (w.setWidth 2 ≠ s.mem.mode → s.greenUsed ≤ greenUnits (w.setWidth 2) → ({ s.mem with mode := w.setWidth 2 } : MemSys).fits = true →
      ∃ u, exec (.devSlcMode w) s = .next u ∧ u.dev.slcDone = true ∧ u.dev.slcBusy = false ∧ u.mem.mode = w.setWidth 2 ∧ (∀ h ∈ u.mem.halves, h ∈ s.mem.halves) ∧
        (s.mem.halves = [] ∨ cacheWays s.mem.mode ≤ cacheWays (w.setWidth 2) → u.mem = { s.mem with mode := w.setWidth 2, converting := none })) ∧
    (w.setWidth 2 ≠ s.mem.mode → s.greenUsed ≤ greenUnits (w.setWidth 2) → ∃ u, exec (.devSlcMode w) s = .next u ∧ u.dev.slcBusy = u.mem.converting.isSome ∧
      u.dev.slcDone = (u.mem.converting.isNone || (s.dev.slcDone && !w.getLsbD 8))) ∧
    (w.setWidth 2 = s.mem.mode → exec (.devSlcMode w) s = .next { s with dev := { s.dev with
      slcDone := s.dev.slcDone && !w.getLsbD 8, slcRefused := s.dev.slcRefused && !w.getLsbD 9 } }) ∧
    (exec (.devLock w) s = .next (if w.getLsbD 0 = true then { s with dev := { s.dev with lock := true } } else s)) ∧
    (s.dev.lock = true → exec (.registerWrite 0 0x1040 w) s = .next s ∧ exec (.registerWrite 0 0x1048 w) s = .next s) ∧
    (exec (.registerWrite f 0x10 w) s = .next { s with fns := s.fns.set f { s.fns[f] with lsize := w.setWidth 5 } }) ∧
    (exec (.registerWrite 0 0x1300 w) s = .next { s with agenda := .devPwr w :: s.agenda })) ∧
  (s.dev.ready = false → ∀ off, exec (.registerWrite f off w) s = .next s ∧ (¬(f = 0 ∧ off = 0x1400) → s.readReg f off = 0)) ∧
  (s.dev.ready = true → s.readReg f 0x100 = 0 ∧ (∀ off, f ≠ 0 → 0x1000 ≤ off → s.readReg f off = 0) ∧
    let ctl : Word := s.readReg 0 (0x100000 + n.val * 0x100)
    let stat : Word := s.readReg 0 (0x100000 + n.val * 0x100 + 0x18)
    ctl.getLsbD 63 = q.bound ∧ ctl.extractLsb' 58 5 = q.fn ∧ ctl.extractLsb' 52 6 = q.proc ∧ ctl.extractLsb' 50 2 = q.cls ∧
    ctl.extractLsb' 46 4 = q.prio ∧ ctl.extractLsb' 41 5 = q.lsize ∧ ctl.extractLsb' 33 8 = q.owner ∧ ctl.extractLsb' 0 33 = 0 ∧
    stat.getLsbD 63 = q.halted ∧ stat.getLsbD 62 = q.unmapped ∧ stat.getLsbD 61 = q.warn ∧ stat.extractLsb' 56 5 = q.err ∧ stat.extractLsb' 0 56 = 0 ∧
    s.readReg 0 (0x1500 + d.val * 0x40) = D.nextSet ∧ (s.readReg 0 (0x1500 + d.val * 0x40 + 0x38)).getLsbD 1 = D.gen) ∧
  (q.bound = true → ∃ u, exec (.slotUnmap n) s = .next u ∧ (u.slots[n]).bound = false ∧ (u.slots[n]).unmapped = true ∧ (u.slots[n]).owner = q.owner ∧
    ((∀ t, q.taken = some t → t.refused = none ∧ ∀ p ∈ s.pads, ¬(p.k = t.k ∧ p.phase = .loading)) → (u.slots[n]).running = q.running ∧
      u.buffers = s.buffers ∧ (u.slots[n]).taken = none ∧ u.mem = ((s.writeBacks q.owner).writeVa q.owner (q.cb.toNat + 0x80) (bytesOf 8 q.next)).mem)) ∧
  (∀ before, before = (if D.hold = true then D.before else s.requests d) →
    ((∃ z ∈ s.mem.hreqs, z.dom = d) ∨ (∃ y ∈ before, y.2 ∈ (s.tile y.1).requests d) → exec (.domainChange d) s = .next { s with
      mem := { s.mem with doms := s.mem.doms.set d { D with hold := true, busy := D.busy || D.leave == 0, before := before } } }) ∧
   ((∀ z ∈ s.mem.hreqs, z.dom ≠ d) → (∀ y ∈ before, y.2 ∉ (s.tile y.1).requests d) →
    let k : Nat := ((List.range 64).filter fun i => D.nextSet.getLsbD i).length
    (D.leave = 0 → (∀ i < 7, k ≠ 2 ^ i) → k ≠ 0 → exec (.domainChange d) s =
      .next (freed { s with mem := { s.mem with doms := s.mem.doms.set d { D with refused := true, busy := false, hold := false, before := [] } } })) ∧
    ∀ (ds : Vector Domain 8),
      (D.leave = 0 ∧ (k = 0 ∨ ∃ i < 7, k = 2 ^ i) ∧ ds = s.mem.doms.set d
        { D with set := D.nextSet, hm := D.nextHm, gen := !D.gen, busy := false, hold := false, refused := false, before := [] }) ∨
      (D.leave ≠ 0 ∧ D.busy = false ∧ ds = s.mem.doms.set d
        { D with set := D.set &&& ~~~D.leave, nextSet := D.set &&& ~~~D.leave, nextHm := D.hm, gen := !D.gen, hold := false, leave := 0, before := [] }) →
      ({ s.mem with doms := ds } : MemSys).fits = true → (s.mem.halves.map HostHalf.half).Nodup →
      let mine : List HostHalf := s.mem.halves.filter fun h => h.dom == d
      ∃ u, exec (.domainChange d) s = .next u ∧ u.mem.doms = ds ∧ u.mem.lines = s.mem.lines ∧ u.tiles = s.tiles ∧
        u.mem.halves = s.mem.halves.filter (fun h => !(h.dom == d)) ∧
        u.out = s.out ++ mine.map (fun h => match h.st with
          | .modified => .cxl .dirtyEvict h.half h.data | .exclusive => .cxl .cleanEvict h.half [] | .shared => .cxl .cleanEvictNoData h.half []) ∧
        (mine = [] → s.mem.behind = [] → u = freed { s with
          mem := { s.mem with doms := ds, converting := none }
          dev := { s.dev with slcDone := s.dev.slcDone || s.dev.slcBusy, slcBusy := false } }))) ∧
  (s.dev.ready = false → exec (.ownerCreate o) s = .next s ∧ exec (.ownerRetire o) s = .next s ∧ exec (.teardown o) s = .next s ∧
    ∀ fr b, exec (.frameOwnerTableWrite fr o b) s = .next s) ∧
  (s.dev.ready = true →
  (∀ op, ¬ may op → let r : State := { s with dev := { s.dev with ownRefused := true, ownOwner := o } }
    (op = 1 → exec (.ownerCreate o) s = .next r) ∧ (op = 2 → exec (.ownerRetire o) s = .next r) ∧ (op = 3 → exec (.teardown o) s = .next r)) ∧
  (may 1 → O.live = true → ∃ u, exec (.ownerCreate o) s = .next u ∧ u.dev.ownRefused = true ∧ u.dev.ownCmd = none ∧ u.dev.ownOwner = owner ∧ u.mem = s.mem) ∧
  (may 1 → O.live = false → ∃ u, exec (.ownerCreate o) s = .next u ∧ u.dev.ownRefused = marked ∧ u.dev.ownCmd = none ∧
    u.mem.owner o = ⟨true, O.root, s.mem.keys⟩ ∧ u.mem.keys = s.mem.keys + 1 ∧ u.mem.bytes = s.mem.bytes) ∧
  (may 2 → s.owns o = true → ∃ u, exec (.ownerRetire o) s = .next u ∧ u.dev.ownRefused = true ∧ u.mem = s.mem) ∧
  (may 2 → s.owns o = false → ∃ u, exec (.ownerRetire o) s = .next u ∧ u.dev.ownRefused = marked ∧ u.mem.owner o = ⟨false, O.root, 1⟩ ∧ u.mem.bytes = s.mem.bytes) ∧
  (may 3 → ∃ u, exec (.teardown o) s = .next u ∧ u.dev.ownCmd = none ∧ u.dev.ownRefused = marked ∧ u.dev.ownOwner = owner ∧
    (s.mem.converting = none → (∀ P ∈ u.pads, P.owner ≠ o) ∧ (∀ k : SlotId, (u.slots[k]).bound = true → (u.slots[k]).owner ≠ o) ∧
    (∀ y ∈ u.mem.wins, y.owner ≠ o) ∧ (∀ y ∈ u.mem.lines, y.owner ≠ o) ∧ (∀ y ∈ u.mem.resv, y.owner ≠ o) ∧ (∀ y ∈ u.mem.grants, y.2 ≠ o) ∧
    (∀ h ∈ u.mem.halves, h.owner ≠ o))) ∧
  (∀ fr, s.mem.place (fr * 2 ^ 16) = .device → (∀ P ∈ s.pads, P.owner ≠ s.mem.frameOwner fr) → O.live = true ∨ o = 0 → fr ∉ s.mem.retired →
    exec (.frameOwnerTableWrite fr o false) s = .next (s.writeMem (s.mem.fot.toNat + fr) [o]))) ∧
  (∃ v : State, v.fns = s.fns.set f { s.fns[f] with resetting := true } ∧ v.pads.map Paddock.pid = s.pads.map Paddock.pid ∧
    v.slots = s.slots ∧ v.mem = s.mem ∧ (room v → ∃ u, exec (.functionReset f) s = .next u ∧ reset u f) ∧
    (¬ room v → exec (.functionReset f) s = .next v)) ∧
  (f ≠ 0 → exec (.functionLevelReset f) s = exec (.functionReset f) s) ∧
  (∃ u, exec (.functionLevelReset 0) s = .next u ∧ exec .hotReset s = .next u ∧ ∀ g, ((s.fns[g]).lsize = 0 → reset u g) ∧
    (reset u g ∨ (u.fns[g]).resetting = true))

/-- Training, once the boot is at step 5 (R361), gives the port its frame counter and its side, 0 in the box of the
lower serial number; losing it halts every stream. A write of lk.bind takes period, owner and tag and clears err by a
1, a port that is bound staying so (log 82); a bind without a bound launch is refused, err set, where an entry below P
breaks the format or two valid entries of a stream disagree; an unbind leaves every stream empty, and holds what its
paddock has posted and not finished (log 105). A frame start that is a period start lifts the halts whose frame has
come, and counts the frame; where the entry is our side's, the stream that is not halted and holds the slot's flits
sends them, any other sends a null frame, with a timetable miss of cause 1 at the stream's owner unless halted; a
bound port whose launch has not started sends null frames, with no context to tell (log 46), and an unbound one
nothing. An arriving frame in the other side's slot adds its flits to the receive buffer; a full buffer raises cause
2, a null frame cause 1, an uncorrectable one a link fault, each reported in a header to come, its own header not
used; a report raises a link fault at the sender; a halted stream takes nothing. A fault is a record with cause, port,
stream and frame at the owner, and halts the stream. (14_two_boxes.md, 15_interrupted.md, R307, R308, R309, R312,
R323) -/
def Obligations.LinksAtWork : Prop :=
  ∀ (s : State) (b : Bool),
  let p : Port := s.port b
  let alone : State → Prop := fun u => u.port (!b) = s.port (!b) ∧ u.mem = s.mem ∧ u.slots = s.slots ∧ u.fns = s.fns ∧ u.dev = s.dev
  (∀ peer f, s.dev.stage.toNat < 5 → exec (.linkTraining b peer f) s = .next s) ∧
  (∀ peer f, 5 ≤ s.dev.stage.toNat → ∃ u, exec (.linkTraining b peer f) s = .next u ∧ alone u ∧ u.tiles = s.tiles ∧
    u.port b = { p with trained := true, side := decide (peer.toNat < Config.serial.toNat), frame := f }) ∧
  (∃ u, exec (.trainingLoss b) s = .next u ∧ alone u ∧ (u.port b).trained = false ∧ (u.port b).table = p.table ∧ (p.pad = none → u.tiles = s.tiles) ∧
    ∀ k : Fin 64, ((u.port b).streams[k]).halted = true) ∧
  (s.dev.ready = true → ∀ w : BitVec 64,
    let q : Port := { p with plen := w.extractLsb' 48 12, owner := w.extractLsb' 40 8, tag := w.setWidth 32, err := p.err && !w.getLsbD 60 }
    let formed : Prop := ∀ x ∈ p.table, x.1 < q.period → (x.2.getLsbD 63 = false → x.2 = 0) ∧ (x.2.getLsbD 63 = true → x.2.extractLsb' 0 29 = 0 ∧ (x.2.extractLsb' 29 5).toNat ≤ 15)
    let agree : Prop := ∀ x ∈ p.table, ∀ y ∈ p.table, x.1 < q.period → y.1 < q.period → x.2.getLsbD 63 = true → y.2.getLsbD 63 = true →
      x.2.extractLsb' 56 6 = y.2.extractLsb' 56 6 → x.2.extractLsb' 34 22 = y.2.extractLsb' 34 22 ∧ x.2.getLsbD 62 = y.2.getLsbD 62
    (p.bound = false → formed ∧ agree → ∃ u, exec (.portBind b w) s = .next u ∧ alone u ∧ u.tiles = s.tiles ∧
      u.port b = { q with bound := true, pad := none, streams := Vector.replicate 64 PortStream.empty, curtained := false, report := [] }) ∧
    (p.bound = true → ∃ u, exec (.portBind b w) s = .next u ∧ alone u ∧ u.tiles = s.tiles ∧ u.port b = q) ∧
    (∃ u, exec (.registerWrite 0 (if b then 0x2010 else 0x2000) w) s = .next u ∧ alone u ∧ u.tiles = s.tiles ∧ u.port b = q ∧
      u.agenda = (if w.getLsbD 63 then Instr.portBind b w else .portUnbind b) :: s.agenda) ∧
    (p.bound = false → ¬(formed ∧ agree) → ∃ u, exec (.portBind b w) s = .next u ∧ alone u ∧ u.tiles = s.tiles ∧ u.port b = { q with err := true }) ∧
    (∃ u, exec (.portUnbind b) s = .next u ∧ alone u ∧
      let posted : TileId → Prop := fun x => ∃ P, p.pad.bind s.pad? = some P ∧ P.image = none ∧ x ∈ P.tiles
      (∀ x, ¬ posted x → u.tile x = s.tile x) ∧
      (∀ x, posted x → u.tile x = { s.tile x with queues := (u.tile x).queues } ∧ ∀ q : Fin 4, (u.tile x).queues[q] = ((s.tile x).queues[q]).map fun e =>
        if e.work.port? = some b ∧ e.unfinished p = true then { e with held := true } else e) ∧
      u.port b = { p with bound := false, pad := none, streams := Vector.replicate 64 PortStream.empty, curtained := false, report := [] })) ∧
  (∀ f : LinkFrame, p.trained = false → exec (.frameStart b) s = .next s ∧ exec (.frameArrival b f) s = .next s) ∧
  (p.trained = true → p.bound = false → (∀ f, exec (.frameArrival b f) s = .next s) ∧
    ∃ u, exec (.frameStart b) s = .next u ∧ alone u ∧ u.out = s.out ∧ u.tiles = s.tiles ∧ u.port b = { p with frame := p.frame + 1 }) ∧
  (∀ P, p.trained = true → p.bound = true → (∀ pid, p.pad = some pid → s.pad? pid = some P ∧ P.image = none) →
    let lifted : Fin 64 → PortStream := fun k => if p.frame.toNat % p.period = 0 ∧ (p.streams[k]).rearm.any (fun f => decide (f ≤ p.frame.toNat)) = true
      then { p.streams[k] with halted := false, rearm := none } else p.streams[k]
    let faulted : State → Fin 64 → Nat → Nat → Nat → Prop := fun u k code cause frame => ((u.port b).streams[k]).halted = true ∧
      ∀ e, p.streamEntry k.val = some e →
        let own : Nat × Fin 4 := if (decide (e / 2 ^ 62 % 2 = 1)) = p.side then (e / 2 ^ 47 % 512, Fin.ofNat 4 (e / 2 ^ 36)) else (e / 2 ^ 38 % 512, Fin.ofNat 4 (e / 2 ^ 34))
        let C : Ctx := (s.tile (P.tile own.1)).ctx own.2
        (C.records.filter fun r => r.queue.isNone).length < 16 → (u.tile (P.tile own.1)).ctx own.2 = { C with
          records := C.records ++ [⟨code, true, 0xFF, 0, 0, BitVec.ofNat 64 (cause + b.toNat * 2 ^ 8 + k.val * 2 ^ 16), BitVec.ofNat 64 frame, none, none⟩] } ∧
        ∀ t, t ≠ P.tile own.1 → u.tile t = s.tile t
    (let e : Nat := p.entry (p.frame.toNat % p.period)
     let k : Fin 64 := Fin.ofNat 64 (e / 2 ^ 56)
     let n : Nat := e / 2 ^ 29 % 32 + 1
     let ours : Prop := e.testBit 63 = true ∧ e.testBit 62 = p.side
     let sends : Prop := (lifted k).halted = false ∧ n ≤ (p.streams[k]).sendBuf.length
     (¬ours → ∃ u, exec (.frameStart b) s = .next u ∧ alone u ∧ u.out = s.out ∧ u.tiles = s.tiles ∧ (u.port b).frame = p.frame + 1 ∧ ∀ j : Fin 64, (u.port b).streams[j] = lifted j) ∧
     (ours → sends → ∃ u, exec (.frameStart b) s = .next u ∧ alone u ∧ u.tiles = s.tiles ∧
       u.out = s.out ++ [.frame b ⟨p.frame, k, ((p.streams[k]).sendBuf.take n).map (·.2), false, false, p.curtained, p.report.head?⟩] ∧
       (u.port b).frame = p.frame + 1 ∧ (u.port b).report = p.report.drop 1 ∧
       ∀ j : Fin 64, (u.port b).streams[j] = if j = k then { lifted k with sendBuf := (p.streams[k]).sendBuf.drop n } else lifted j) ∧
     (ours → ¬sends → ∃ u, exec (.frameStart b) s = .next u ∧ alone u ∧ u.out = s.out ++ [.frame b ⟨p.frame, k, [], true, false, p.curtained, p.report.head?⟩] ∧
       (u.port b).frame = p.frame + 1 ∧ (u.port b).report = p.report.drop 1 ∧
       ((lifted k).halted = true ∨ p.pad = none → u.tiles = s.tiles ∧ (u.port b).streams[k] = lifted k) ∧
       ((lifted k).halted = false → p.pad ≠ none → faulted u k 0x13 1 p.frame.toNat) ∧ ∀ j, j ≠ k → (u.port b).streams[j] = lifted j)) ∧
    ∀ f : LinkFrame,
      let e : Nat := p.entry (f.num.toNat % p.period)
      let k : Fin 64 := Fin.ofNat 64 (e / 2 ^ 56)
      let theirs : Prop := e.testBit 63 = true ∧ e.testBit 62 ≠ p.side
      let x : PortStream := p.streams[k]
      (f.report = none ∨ f.bad = true → ¬theirs → exec (.frameArrival b f) s = .next s) ∧
      (f.report = none ∨ f.bad = true → theirs → x.halted = true → ∃ u, exec (.frameArrival b f) s = .next u ∧ (f.bad = true → (u.port b).report = p.report ++ [f.num]) ∧
        (f.curtained = false ∨ f.bad = true → u.tiles = s.tiles ∧ ∀ j : Fin 64, (u.port b).streams[j] = p.streams[j])) ∧
      (theirs → x.halted = false → f.bad = true → ∃ u, exec (.frameArrival b f) s = .next u ∧ alone u ∧ (p.pad ≠ none → faulted u k 0x14 0 f.num.toNat) ∧
        (p.pad = none → u.tiles = s.tiles) ∧ (u.port b).report = p.report ++ [f.num]) ∧
      (f.report = none → theirs → x.halted = false → f.bad = false → f.curtained = false → f.stream = k →
        (p.pad = none → f.null = true ∨ 64 < x.recvBuf.length + f.flits.length → exec (.frameArrival b f) s = .next s) ∧
        (p.pad ≠ none → f.null = true → ∃ u, exec (.frameArrival b f) s = .next u ∧ alone u ∧ faulted u k 0x13 1 f.num.toNat) ∧
        (p.pad ≠ none → f.null = false → 64 < x.recvBuf.length + f.flits.length → ∃ u, exec (.frameArrival b f) s = .next u ∧ alone u ∧ faulted u k 0x13 2 f.num.toNat) ∧
        (f.null = false → x.recvBuf.length + f.flits.length ≤ 64 → ∃ u, exec (.frameArrival b f) s = .next u ∧ alone u ∧ u.tiles = s.tiles ∧
          u.port b = { p with streams := p.streams.set k { x with recvBuf := x.recvBuf ++ f.flits } })) ∧
      (∀ j, p.pad ≠ none → f.bad = false → f.report = some j →
        let o : Nat := p.entry (j.toNat % p.period)
        o.testBit 63 = true → o.testBit 62 = p.side → (p.streams[Fin.ofNat 64 (o / 2 ^ 56)]).halted = false → ¬theirs →
          ∃ u, exec (.frameArrival b f) s = .next u ∧ alone u ∧ faulted u (Fin.ofNat 64 (o / 2 ^ 56)) 0x14 0 j.toNat))

/-- A write of dev.pwr of 3 is ignored, one during a change is held, any other is requested; a change's end puts it in
force, clk falling to the ceiling at once, and takes up a held request. A sample with tj at 110 removes power; at 100
sets clk to the floor, held until tj is below 95; power over plim steps clk down by 100 MHz to the floor; below 0.95
of plim at every sample of 10 ms (here 101 in a row, log 66) with tj below 95 steps it up to the ceiling; clk below
the ceiling reads as throttled. Power-on (in its reading of log 67) stops in step 1, 2, 3 or 4 with that err for a bad
image or one below the fused minimum, a bad identity, over 8 failed channels or a row without a working tile; else the
device is ready in stage 6, with the images of accepted updates running, withheld tiles replaced and the absent
positions of R55 marked; of memory the host's alone keeps its bytes. An update is accepted when its signature verifies
and its version is not below the fused minimum, and waits for the next boot. A quote of a kept launch that is not
running has the 184 bytes of R363, with the digest of the drover firmware that runs; any other request answers an
error (log 68). (00_scope.md, 16_retired.md, 22_the_device.md, R54, R55, R343, R358, R359, R360, R361, R362, R363) -/
def Obligations.TheDeviceInItsBox : Prop :=
  ∀ (s : State) (w : BitVec 64),
  let d : DevRegs := s.dev
  let top : BitVec 2 → Nat := fun m => if m = 0 then 1400 else if m = 1 then 1900 else 2200
  (d.ready = true →
    (w.setWidth 2 = 3#2 → exec (.devPwr w) s = .next s) ∧
    (w.setWidth 2 ≠ 3#2 → d.pwrBusy = true → exec (.devPwr w) s = .next { s with dev := { d with heldReq := some (w.setWidth 2) } }) ∧
    (w.setWidth 2 ≠ 3#2 → d.pwrBusy = false → exec (.devPwr w) s = .next { s with dev := { d with req := w.setWidth 2, pwrBusy := decide (w.setWidth 2 ≠ d.cur) } })) ∧
  ((s.dev.throttled = true ↔ d.clk < top d.cur) ∧ (d.ready = true → (s.readReg 0 0x1308).getLsbD 2 = d.throttled)) ∧
  (d.pwrBusy = true → ∃ u, exec .modeChangeDone s = .next u ∧ u.tiles = s.tiles ∧ u.mem = s.mem ∧ u.dev.cur = d.req ∧ u.dev.clk = min d.clk (top d.req) ∧
    (d.heldReq = none → u.dev.pwrBusy = false ∧ u.dev.req = d.req) ∧ ∀ r, d.heldReq = some r → u.dev.req = r ∧ u.dev.heldReq = none ∧ u.dev.pwrBusy = decide (r ≠ d.req)) ∧
  (∀ tj power, tj < 256 → power < 65536 →
    let plim : Nat := if d.cur = 0 then 350 else if d.cur = 1 then 600 else 750
    ∃ u, exec (.powerSample tj power) s = .next u ∧ u.tiles = s.tiles ∧ u.mem = s.mem ∧ u.dev.tj.toNat = tj ∧ u.dev.tpeak.toNat = max tj d.tpeak.toNat ∧
      u.dev.power.toNat = power ∧ u.dev.low = (if 100 * power < 95 * plim then d.low + 1 else 0) ∧
      (110 ≤ tj → u.dev.off = true ∧ ((∀ r l, s.agenda ≠ .powerOn r :: l) → step u = .fault .powerRemoved)) ∧ (tj < 110 → u.dev.off = d.off) ∧
      (100 ≤ tj → tj < 110 → u.dev.clk = 1400 ∧ u.dev.tthr = true ∧ u.dev.hot = true) ∧
      (95 ≤ tj → tj < 100 → d.hot = true → u.dev.clk = 1400 ∧ u.dev.hot = true) ∧
      (tj < 100 → d.hot = false ∨ tj < 95 → u.dev.hot = false ∧
        (plim < power → u.dev.clk = max 1400 (d.clk - 100) ∧ u.dev.pthr = (d.pthr || decide (1400 < d.clk))) ∧
        (power ≤ plim → 101 ≤ u.dev.low → tj < 95 → u.dev.clk = min (top d.cur) (d.clk + 100)) ∧
        (power ≤ plim → u.dev.low < 101 ∨ 95 ≤ tj → u.dev.clk = d.clk))) ∧
  (∀ r : BringUp,
    let v : BitVec 16 := (d.nextSm.map fun x => x.1).getD r.fwver
    let lost : Nat := ((List.range 64).filter fun c => r.badChans.contains c || s.mem.failing.contains c).length
    let place : (Nat → List Nat) → TileId → Option (Nat × Nat) := fun cols t => ((cols (t.val / 24))[t.val % 24]?).map fun c => (c, t.val / 24)
    let was : Nat → List Nat := fun row => (List.range 26).filter fun c => !d.failed.contains (c, row)
    let gone : Nat × Nat → Prop := fun c => c ∈ r.failed ∨ ∃ t : TileId, d.held.getLsbD t.val = true ∧ place was t = some c
    ∀ work : Nat → List Nat, (∀ row, (work row).Pairwise (· < ·) ∧ ∀ c, c ∈ work row ↔ c < 26 ∧ ¬ gone (c, row)) →
    let ok1 : Prop := r.fwOk = true ∧ Config.fusedMin.toNat ≤ v.toNat ∧ Config.fusedMin.toNat ≤ ((d.nextDrover.map fun x => x.1).getD r.fwver).toNat
    let ends : Nat → Prop := fun k => ∃ u, exec (.powerOn r) s = .next u ∧ u.dev.ready = false ∧ u.dev.stage.toNat = k ∧ u.dev.err.toNat = k ∧ u.mem.bytes = s.mem.bytes.filter (fun c => 2 ^ 47 ≤ c.1)
    (¬ok1 → ends 1) ∧ (ok1 → r.idOk = false → ends 2) ∧ (ok1 → r.idOk = true → 8 < lost → ends 3) ∧
    (ok1 → r.idOk = true → lost ≤ 8 → (∃ row < 16, work row = []) → ends 4) ∧
    (ok1 → r.idOk = true → lost ≤ 8 → (∀ row < 16, work row ≠ []) → ∃ u, exec (.powerOn r) s = .next u ∧ u.dev.ready = true ∧ u.dev.stage = 6 ∧ u.dev.err = 0 ∧
      u.dev.fwver = v ∧ u.dev.droverDigest = (d.nextDrover.map fun x => x.2).getD Config.droverDigest ∧
      u.dev.smDigest = (d.nextSm.map fun x => x.2).getD Config.smDigest ∧ u.mem.chans = lost ∧ u.dev.clk = 1900 ∧ u.mem.mode = State.reset.mem.mode ∧ u.mem.bytes = s.mem.bytes.filter (fun c => 2 ^ 47 ≤ c.1) ∧ u.pads = [] ∧ (d.ownCmd = none → u.agenda = s.agenda) ∧
      ∀ row < 16, ∀ col < 24, u.dev.absent.getLsbD (24 * row + col) = true ↔
        (work row).length ≤ col ∨ ∃ row' ∈ [(row + 1) % 16, (row + 15) % 16], ∃ a b, (work row)[col]? = some a ∧ (work row')[col]? = some b ∧ (a + 2 < b ∨ b + 2 < a))) ∧
  (∀ (dr : Bool) (ver : BitVec 16) (img : List (BitVec 8)) (sig : BitVec 512),
    let ok : Bool := Config.sm2Verify Config.fusedKey (Config.sm3 img) sig && decide (Config.fusedMin.toNat ≤ ver.toNat)
    ∃ u, exec (.firmwareUpdate dr ver img sig) s = .next u ∧ u.out = s.out ++ [.firmware ok] ∧ u.mem = s.mem ∧ u.dev.fwver = d.fwver ∧
      (ok = true → if dr then u.dev.nextDrover = some (ver, Config.sm3 img) ∧ u.dev.nextSm = d.nextSm
        else u.dev.nextSm = some (ver, Config.sm3 img) ∧ u.dev.nextDrover = d.nextDrover) ∧
      (ok = false → u.dev = d)) ∧
  (∀ (n : SlotId) (tag : BitVec 32) (nonce : BitVec 256),
    let running : Prop := ∃ P ∈ s.pads, P.slot = n ∧ pkTag P.pkt = tag
    (running ∨ (∀ h ∈ (s.slots[n]).hist, h.tag ≠ tag) → exec (.quoteRequest n tag nonce) s = .next { s with out := s.out ++ [.quote none] }) ∧
    ∀ h l r, ¬running → (s.slots[n]).hist = l ++ h :: r → (∀ x ∈ l, x.tag ≠ tag) → h.tag = tag → h.status < 2 ^ 32 →
      ∃ q, exec (.quoteRequest n tag nonce) s = .next { s with out := s.out ++ [.quote (some q)] } ∧ q.length = 184 ∧
        fieldAt q 0 0x20 = nonce.toNat ∧ fieldAt q 0x20 8 = Config.serial.toNat ∧ fieldAt q 0x28 1 = n.val ∧ fieldAt q 0x29 1 = h.owner.toNat ∧
        fieldAt q 0x2A 2 = 0 ∧ fieldAt q 0x2C 4 = tag.toNat ∧ fieldAt q 0x30 4 = h.status ∧ fieldAt q 0x34 32 = h.attest.toNat ∧
        fieldAt q 0x54 32 = d.droverDigest.toNat ∧ fieldAt q 0x74 4 = 0 ∧ fieldAt q 0x78 64 = (Config.sm2Sign (Config.sm3 (q.take 0x78))).toNat)

/-- Whatever its opcode and operands, a syllable that a tile context performs within an issued bundle answers a next
state in which main memory, the bundle in issue, every queue slot, drover thread, function and device register, every
other tile and every other context of the tile are as they were, and the x and v registers of the context itself too:
a result stays in flight until it lands. (What else of the tile and context it changes is each instruction's own
statement.) (04_fetched.md, 06_scalar_and_control.md, 13_synchronised.md, R91, R98, R128, R129, R130, R283) -/
def Obligations.EverySyllableIsLocal : Prop :=
  ∀ (i : Instr) (s : State) (t : TileId) (c : Fin 4),
  i.slotClass ≠ none → s.issue.cleared = true → s.issue.agent = .ctx t c →
  ∃ u, exec i s = .next u ∧ u.mem = s.mem ∧ u.issue = s.issue ∧ u.agenda = s.agenda ∧ u.focus = s.focus ∧ u.slots = s.slots ∧ u.drovers = s.drovers ∧
    u.fns = s.fns ∧ u.dev = s.dev ∧ (∀ x, x ≠ t → u.tile x = s.tile x) ∧ (∀ k, k ≠ c → (u.tile t).ctx k = (s.tile t).ctx k) ∧
    ((u.tile t).ctx c).bank.x = ((s.tile t).ctx c).bank.x ∧ ((u.tile t).ctx c).bank.v = ((s.tile t).ctx c).bank.v

/-- The bundle 0xB713_8000_0000_0000 at index 0x40 with its three syllables decodes to BR, ADD and VADD.f32 with its
point bit set, and the syllables the spec writes out of YIELD, ERET, MLD, VFMA, MMA, CPY, DRAIN, FLKADD, PGCAST, MERGE
and LKSEND decode to those instructions with the operands it names. (04_fetched.md, R89, R90, R92, R93, R94, R189,
R256, R273, R277, R310, R324) -/
def Obligations.DecodesTheWordsOfTheSpec : Prop :=
  let p0 : Guard := ⟨0, false⟩
  decodeBundle false 0x40 0xB713800000000000 [0x0120FFFFFFF00000, 0x0100146840000000, 0x0104082040000000] 16383 =
    .ok ⟨0x40, true, 0, [(.k, .br ⟨2, false⟩ 0xFFFFFFF0), (.i0, .add p0 .i64 5 (.reg 6) (.pop 1)), (.v0, .vadd p0 .f32 2 (.reg 2) (.reg 1) .rne false false)]⟩ ∧
  decode false .k 0x0A08000000000000 = some (.yield ⟨0, true⟩) ∧
  decode false .k 0x1000000000000000 = some (.eret p0) ∧
  decode false .a 0x0F010C5200000010 = some (.mld p0 .i32 (.ring 3) (.reg 5) 2 false 16) ∧
  decode false .v 0x0404105884000000 = some (.vfma p0 .f32 4 (.reg 5) (.pop 2) (.reg 4) .rne false false) ∧
  decode false .m 0x0100021880418800 = some (.mma p0 0 (.pop 1) (.pop 2) (.reg 0) .f4 .f6 1 false) ∧
  decode false .e 0x0300086200000000 = some (.cpy p0 2 (.reg 6) 1) ∧
  decode false .e 0x0A00000000000000 = some (.drain p0) ∧
  decode false .e 0x1200000000034000 = some (.flkadd p0 (.reg 0) 3 1) ∧
  decode false .e 0x1400048400000000 = some (.pgcast p0 1 (.reg 8) 2) ∧
  decode false .e 0x1500005187004000 = some (.merge p0 (.reg 5) (.reg 6) (.reg 7) 1) ∧
  decode false .e 0x190008620001F81C = some (.lksendData p0 2 (.reg 6) 1 false 0 31 true 7)

/-- For every word, slot class and issuer (a tile context or a drover thread), decoding the word answers an
instruction exactly when that instruction belongs to the class, the issuer accepts it, and its encoding is the word.
So every accepted instruction, with every operand at every value its encoding admits, is read back from its encoding;
no two words decode to one instruction, and no word decodes in two ways. (04_fetched.md, R89, R90, R92, R93, R94, R95,
R106) -/
def Obligations.DecodeAndEncodeAgree : Prop :=
  ∀ (dr : Bool) (c : SClass) (w : Nat) (i : Instr), decode dr c w = some i ↔ i.SyllableIn dr c ∧ i.encode = w

/-- A state is safe when main memory is in its canonical form and no bundle stands half performed. From every safe
state, whatever it holds and whatever event is next, a step answers a next state that is safe too, or the fault that
power is removed; it never refuses. The canonical form is the model's own way to hold memory; that a bundle performs
whole within its step is R130's. (03_placed.md, 04_fetched.md, 06_scalar_and_control.md, 13_synchronised.md,
22_the_device.md, R62, R91, R130, R283, R359) -/
def Obligations.EveryStepKeepsTheStateSafe : Prop :=
  ∀ s : State, s.Safe → SafeOutcome (step s)

/-- After reset memory is in its canonical form and no bundle stands half performed; dev.pwr shows 1,900 MHz, the
Standard mode in force and requested and no change under way, dev.therm and dev.boot show zeros, dev.health reports
nothing, both lk.bind registers and every slot register are clear. (02_launched.md, 14_two_boxes.md, 16_retired.md,
22_the_device.md, R45, R308, R344, R358, R360, R362) -/
def Obligations.ResetIsSafeAndHoldsTheResetValues : Prop :=
  State.reset.Safe ∧
  (let d : DevRegs := State.reset.dev
   d.clk = 1900 ∧ d.cur = 1 ∧ d.req = 1 ∧ d.pwrBusy = false ∧ d.tj = 0 ∧ d.tpeak = 0 ∧ d.power = 0 ∧ d.pthr = false ∧ d.tthr = false ∧
   d.ready = false ∧ d.stage = 0 ∧ d.fwver = 0 ∧ d.err = 0 ∧ d.off = false) ∧
  State.reset.health = 0 ∧
  (∀ b, (State.reset.port b).bound = false ∧ (State.reset.port b).side = false ∧ (State.reset.port b).trained = false ∧ (State.reset.port b).err = false ∧
    (State.reset.port b).plen = 0 ∧ (State.reset.port b).owner = 0 ∧ (State.reset.port b).tag = 0) ∧
  ∀ n : SlotId, let q : QueueSlot := State.reset.slots[n]
    q.bound = false ∧ q.halted = false ∧ q.err = 0 ∧ q.unmapped = false ∧ q.warn = false ∧ q.wake = false ∧ q.taken = none ∧ q.running = []
end

