-- ==== Sys2Proof/Laws/Sparse.lean ====
section
/-!
SUPPORT. Lists of numbered contents in canonical form: a read after a write, a write elsewhere, and that every
operation keeps the form.
-/
namespace Sys2Proof.Machine

variable {α : Type} [DecidableEq α] {d : α}

theorem Sparse.wfFrom_cons {lo j : Nat} {a : α} {r : Sparse α} :
    Sparse.wfFrom d lo ((j, a) :: r) = true ↔ lo ≤ j ∧ a ≠ d ∧ Sparse.wfFrom d (j + 1) r = true := by
  simp [Sparse.wfFrom, and_assoc]

/-- The bound may be lowered. -/
theorem Sparse.wfFrom_mono {m : Sparse α} {lo hi : Nat} (h : lo ≤ hi) (w : Sparse.wfFrom d hi m = true) :
    Sparse.wfFrom d lo m = true := by
  cases m with
  | nil => rfl
  | cons p r => rw [Sparse.wfFrom_cons] at w ⊢; exact ⟨by omega, w.2⟩

/-- Nothing is listed below the bound. -/
theorem Sparse.get_below {k : Nat} : ∀ {m : Sparse α} {lo : Nat}, Sparse.wfFrom d lo m = true → k < lo → Sparse.get d m k = d
  | [], _, _, _ => rfl
  | (j, a) :: r, lo, w, hk => by
    rw [Sparse.wfFrom_cons] at w
    have : j ≠ k := by omega
    simpa [Sparse.get, this] using Sparse.get_below w.2.2 (by omega)

theorem Sparse.wfFrom_put {k : Nat} {v : α} :
    ∀ {m : Sparse α} {lo : Nat}, Sparse.wfFrom d lo m = true → lo ≤ k → Sparse.wfFrom d lo (Sparse.put d m k v) = true
  | [], _, _, hk => by by_cases hv : v = d <;> simp [Sparse.put, hv, Sparse.wfFrom, hk]
  | (j, a) :: r, lo, w, hk => by
    rw [Sparse.wfFrom_cons] at w
    unfold Sparse.put
    split
    · split
      · exact Sparse.wfFrom_cons.2 w
      · exact Sparse.wfFrom_cons.2 ⟨hk, ‹_›, Sparse.wfFrom_cons.2 ⟨by omega, w.2⟩⟩
    · split
      · split
        · exact Sparse.wfFrom_mono (by omega) w.2.2
        · exact Sparse.wfFrom_cons.2 ⟨hk, ‹_›, Sparse.wfFrom_mono (by omega) w.2.2⟩
      · exact Sparse.wfFrom_cons.2 ⟨w.1, w.2.1, Sparse.wfFrom_put w.2.2 (by omega)⟩

/-- A write is read back at its number and nowhere else. -/
theorem Sparse.get_put {k j : Nat} {v : α} :
    ∀ {m : Sparse α} {lo : Nat}, Sparse.wfFrom d lo m = true →
      Sparse.get d (Sparse.put d m k v) j = if j = k then v else Sparse.get d m j
  | [], _, _ => by
    by_cases hv : v = d <;> by_cases hj : j = k <;> simp [Sparse.put, Sparse.get, hv, hj]
    intro e; exact absurd e.symm hj
  | (i, a) :: r, lo, w => by
    rw [Sparse.wfFrom_cons] at w
    unfold Sparse.put
    split
    · by_cases hj : j = k
      · subst hj
        have hi : i ≠ j := by omega
        by_cases hv : v = d
        · simp [hv, Sparse.get, hi, Sparse.get_below w.2.2 (show j < i + 1 by omega)]
        · simp [hv, Sparse.get]
      · have : k ≠ j := fun e => hj e.symm
        by_cases hv : v = d <;> simp [hv, Sparse.get, hj, this]
    · split
      · by_cases hj : j = k
        · subst hj; subst i
          by_cases hv : v = d
          · simp [hv, Sparse.get_below w.2.2 (show j < j + 1 by omega)]
          · simp [hv, Sparse.get]
        · have : k ≠ j := fun e => hj e.symm
          subst i
          by_cases hv : v = d <;> simp [hv, Sparse.get, hj, this]
      · by_cases hi : i = j
        · have : ¬ j = k := by omega
          simp [Sparse.get, hi, this]
        · simp [Sparse.get, hi, Sparse.get_put w.2.2]

@[simp] theorem Sparse.wf_nil : Sparse.wf d ([] : Sparse α) = true := rfl

theorem Sparse.put_wf {m : Sparse α} {k : Nat} {v : α} (w : Sparse.wf d m = true) : Sparse.wf d (Sparse.put d m k v) = true :=
  Sparse.wfFrom_put w (Nat.zero_le _)

theorem Sparse.puts_wf {l : List (Nat × α)} : ∀ {m : Sparse α}, Sparse.wf d m = true → Sparse.wf d (Sparse.puts d m l) = true := by
  induction l with
  | nil => exact id
  | cons p r ih => intro m w; exact ih (m := Sparse.put d m p.1 p.2) (Sparse.put_wf w)

theorem Sparse.wfFrom_filter {f : Nat × α → Bool} :
    ∀ {m : Sparse α} {lo : Nat}, Sparse.wfFrom d lo m = true → Sparse.wfFrom d lo (m.filter f) = true
  | [], _, _ => rfl
  | (j, a) :: r, lo, w => by
    rw [Sparse.wfFrom_cons] at w
    rw [List.filter_cons]
    split
    · exact Sparse.wfFrom_cons.2 ⟨w.1, w.2.1, Sparse.wfFrom_filter w.2.2⟩
    · exact Sparse.wfFrom_mono (by omega) (Sparse.wfFrom_filter w.2.2)

theorem Sparse.filter_wf {m : Sparse α} {f : Nat × α → Bool} (w : Sparse.wf d m = true) : Sparse.wf d (m.filter f) = true :=
  Sparse.wfFrom_filter w

/-- A number that is not written keeps its contents. -/
theorem Sparse.get_puts_other {j : Nat} {l : List (Nat × α)} :
    ∀ {m : Sparse α}, Sparse.wf d m = true → (∀ p ∈ l, p.1 ≠ j) → Sparse.get d (Sparse.puts d m l) j = Sparse.get d m j := by
  induction l with
  | nil => intros; rfl
  | cons p r ih =>
    intro m w h
    have hp : j ≠ p.1 := fun e => h p (List.mem_cons_self ..) e.symm
    have := ih (m := Sparse.put d m p.1 p.2) (Sparse.put_wf w) fun q hq => h q (List.mem_cons_of_mem _ hq)
    rw [Sparse.get_put w, if_neg hp] at this
    exact this

end Sys2Proof.Machine
end

