-- ==== Sys2Proof/Laws/State.lean ====
section
/-!
SUPPORT. What each update of the state leaves as it was, field by field, and what a read after it gives.
-/
namespace Sys2Proof.Machine

@[simp] theorem State.modTile_agenda (s : State) (t : TileId) (f : Tile → Tile) : (s.modTile t f).agenda = s.agenda := rfl
@[simp] theorem State.modTile_focus (s : State) (t : TileId) (f : Tile → Tile) : (s.modTile t f).focus = s.focus := rfl
@[simp] theorem State.modTile_issue (s : State) (t : TileId) (f : Tile → Tile) : (s.modTile t f).issue = s.issue := rfl
@[simp] theorem State.modTile_drovers (s : State) (t : TileId) (f : Tile → Tile) : (s.modTile t f).drovers = s.drovers := rfl
@[simp] theorem State.modTile_mem (s : State) (t : TileId) (f : Tile → Tile) : (s.modTile t f).mem = s.mem := rfl
@[simp] theorem State.modTile_ports (s : State) (t : TileId) (f : Tile → Tile) : (s.modTile t f).ports = s.ports := rfl
@[simp] theorem State.modTile_slots (s : State) (t : TileId) (f : Tile → Tile) : (s.modTile t f).slots = s.slots := rfl
@[simp] theorem State.modTile_fns (s : State) (t : TileId) (f : Tile → Tile) : (s.modTile t f).fns = s.fns := rfl
@[simp] theorem State.modTile_dev (s : State) (t : TileId) (f : Tile → Tile) : (s.modTile t f).dev = s.dev := rfl
@[simp] theorem State.modTile_pads (s : State) (t : TileId) (f : Tile → Tile) : (s.modTile t f).pads = s.pads := rfl
@[simp] theorem State.modTile_out (s : State) (t : TileId) (f : Tile → Tile) : (s.modTile t f).out = s.out := rfl
@[simp] theorem State.modTile_faults (s : State) (t : TileId) (f : Tile → Tile) : (s.modTile t f).faults = s.faults := rfl
@[simp] theorem State.modTile_calls (s : State) (t : TileId) (f : Tile → Tile) : (s.modTile t f).calls = s.calls := rfl
@[simp] theorem State.modTile_buffers (s : State) (t : TileId) (f : Tile → Tile) : (s.modTile t f).buffers = s.buffers := rfl
@[simp] theorem State.modTile_kept (s : State) (t : TileId) (f : Tile → Tile) : (s.modTile t f).kept = s.kept := rfl
@[simp] theorem State.modTile_serial (s : State) (t : TileId) (f : Tile → Tile) : (s.modTile t f).serial = s.serial := rfl
@[simp] theorem State.modTile_fresh (s : State) (t : TileId) (f : Tile → Tile) : (s.modTile t f).fresh = s.fresh := rfl

@[simp] theorem State.modDrover_agenda (s : State) (n : SlotId) (f : Drover → Drover) : (s.modDrover n f).agenda = s.agenda := rfl
@[simp] theorem State.modDrover_focus (s : State) (n : SlotId) (f : Drover → Drover) : (s.modDrover n f).focus = s.focus := rfl
@[simp] theorem State.modDrover_issue (s : State) (n : SlotId) (f : Drover → Drover) : (s.modDrover n f).issue = s.issue := rfl
@[simp] theorem State.modDrover_tiles (s : State) (n : SlotId) (f : Drover → Drover) : (s.modDrover n f).tiles = s.tiles := rfl
@[simp] theorem State.modDrover_mem (s : State) (n : SlotId) (f : Drover → Drover) : (s.modDrover n f).mem = s.mem := rfl
@[simp] theorem State.modDrover_ports (s : State) (n : SlotId) (f : Drover → Drover) : (s.modDrover n f).ports = s.ports := rfl
@[simp] theorem State.modDrover_slots (s : State) (n : SlotId) (f : Drover → Drover) : (s.modDrover n f).slots = s.slots := rfl
@[simp] theorem State.modDrover_fns (s : State) (n : SlotId) (f : Drover → Drover) : (s.modDrover n f).fns = s.fns := rfl
@[simp] theorem State.modDrover_dev (s : State) (n : SlotId) (f : Drover → Drover) : (s.modDrover n f).dev = s.dev := rfl
@[simp] theorem State.modDrover_pads (s : State) (n : SlotId) (f : Drover → Drover) : (s.modDrover n f).pads = s.pads := rfl
@[simp] theorem State.modDrover_out (s : State) (n : SlotId) (f : Drover → Drover) : (s.modDrover n f).out = s.out := rfl
@[simp] theorem State.modDrover_faults (s : State) (n : SlotId) (f : Drover → Drover) : (s.modDrover n f).faults = s.faults := rfl
@[simp] theorem State.modDrover_calls (s : State) (n : SlotId) (f : Drover → Drover) : (s.modDrover n f).calls = s.calls := rfl
@[simp] theorem State.modDrover_buffers (s : State) (n : SlotId) (f : Drover → Drover) : (s.modDrover n f).buffers = s.buffers := rfl
@[simp] theorem State.modDrover_kept (s : State) (n : SlotId) (f : Drover → Drover) : (s.modDrover n f).kept = s.kept := rfl
@[simp] theorem State.modDrover_serial (s : State) (n : SlotId) (f : Drover → Drover) : (s.modDrover n f).serial = s.serial := rfl
@[simp] theorem State.modDrover_fresh (s : State) (n : SlotId) (f : Drover → Drover) : (s.modDrover n f).fresh = s.fresh := rfl

@[simp] theorem State.modMem_agenda (s : State) (t : TileId) (f : TileMem → TileMem) : (s.modMem t f).agenda = s.agenda := rfl
@[simp] theorem State.modMem_focus (s : State) (t : TileId) (f : TileMem → TileMem) : (s.modMem t f).focus = s.focus := rfl
@[simp] theorem State.modMem_issue (s : State) (t : TileId) (f : TileMem → TileMem) : (s.modMem t f).issue = s.issue := rfl
@[simp] theorem State.modMem_drovers (s : State) (t : TileId) (f : TileMem → TileMem) : (s.modMem t f).drovers = s.drovers := rfl
@[simp] theorem State.modMem_mem (s : State) (t : TileId) (f : TileMem → TileMem) : (s.modMem t f).mem = s.mem := rfl
@[simp] theorem State.modMem_ports (s : State) (t : TileId) (f : TileMem → TileMem) : (s.modMem t f).ports = s.ports := rfl
@[simp] theorem State.modMem_slots (s : State) (t : TileId) (f : TileMem → TileMem) : (s.modMem t f).slots = s.slots := rfl
@[simp] theorem State.modMem_fns (s : State) (t : TileId) (f : TileMem → TileMem) : (s.modMem t f).fns = s.fns := rfl
@[simp] theorem State.modMem_dev (s : State) (t : TileId) (f : TileMem → TileMem) : (s.modMem t f).dev = s.dev := rfl
@[simp] theorem State.modMem_pads (s : State) (t : TileId) (f : TileMem → TileMem) : (s.modMem t f).pads = s.pads := rfl
@[simp] theorem State.modMem_out (s : State) (t : TileId) (f : TileMem → TileMem) : (s.modMem t f).out = s.out := rfl
@[simp] theorem State.modMem_faults (s : State) (t : TileId) (f : TileMem → TileMem) : (s.modMem t f).faults = s.faults := rfl
@[simp] theorem State.modMem_calls (s : State) (t : TileId) (f : TileMem → TileMem) : (s.modMem t f).calls = s.calls := rfl
@[simp] theorem State.modMem_buffers (s : State) (t : TileId) (f : TileMem → TileMem) : (s.modMem t f).buffers = s.buffers := rfl
@[simp] theorem State.modMem_kept (s : State) (t : TileId) (f : TileMem → TileMem) : (s.modMem t f).kept = s.kept := rfl
@[simp] theorem State.modMem_serial (s : State) (t : TileId) (f : TileMem → TileMem) : (s.modMem t f).serial = s.serial := rfl
@[simp] theorem State.modMem_fresh (s : State) (t : TileId) (f : TileMem → TileMem) : (s.modMem t f).fresh = s.fresh := rfl

@[simp] theorem State.modPad_agenda (s : State) (p : Nat) (f : Paddock → Paddock) : (s.modPad p f).agenda = s.agenda := rfl
@[simp] theorem State.modPad_focus (s : State) (p : Nat) (f : Paddock → Paddock) : (s.modPad p f).focus = s.focus := rfl
@[simp] theorem State.modPad_issue (s : State) (p : Nat) (f : Paddock → Paddock) : (s.modPad p f).issue = s.issue := rfl
@[simp] theorem State.modPad_tiles (s : State) (p : Nat) (f : Paddock → Paddock) : (s.modPad p f).tiles = s.tiles := rfl
@[simp] theorem State.modPad_drovers (s : State) (p : Nat) (f : Paddock → Paddock) : (s.modPad p f).drovers = s.drovers := rfl
@[simp] theorem State.modPad_mem (s : State) (p : Nat) (f : Paddock → Paddock) : (s.modPad p f).mem = s.mem := rfl
@[simp] theorem State.modPad_ports (s : State) (p : Nat) (f : Paddock → Paddock) : (s.modPad p f).ports = s.ports := rfl
@[simp] theorem State.modPad_slots (s : State) (p : Nat) (f : Paddock → Paddock) : (s.modPad p f).slots = s.slots := rfl
@[simp] theorem State.modPad_fns (s : State) (p : Nat) (f : Paddock → Paddock) : (s.modPad p f).fns = s.fns := rfl
@[simp] theorem State.modPad_dev (s : State) (p : Nat) (f : Paddock → Paddock) : (s.modPad p f).dev = s.dev := rfl
@[simp] theorem State.modPad_out (s : State) (p : Nat) (f : Paddock → Paddock) : (s.modPad p f).out = s.out := rfl
@[simp] theorem State.modPad_faults (s : State) (p : Nat) (f : Paddock → Paddock) : (s.modPad p f).faults = s.faults := rfl
@[simp] theorem State.modPad_calls (s : State) (p : Nat) (f : Paddock → Paddock) : (s.modPad p f).calls = s.calls := rfl
@[simp] theorem State.modPad_buffers (s : State) (p : Nat) (f : Paddock → Paddock) : (s.modPad p f).buffers = s.buffers := rfl
@[simp] theorem State.modPad_kept (s : State) (p : Nat) (f : Paddock → Paddock) : (s.modPad p f).kept = s.kept := rfl
@[simp] theorem State.modPad_serial (s : State) (p : Nat) (f : Paddock → Paddock) : (s.modPad p f).serial = s.serial := rfl
@[simp] theorem State.modPad_fresh (s : State) (p : Nat) (f : Paddock → Paddock) : (s.modPad p f).fresh = s.fresh := rfl

@[simp] theorem State.modSlot_agenda (s : State) (n : SlotId) (f : QueueSlot → QueueSlot) : (s.modSlot n f).agenda = s.agenda := rfl
@[simp] theorem State.modSlot_focus (s : State) (n : SlotId) (f : QueueSlot → QueueSlot) : (s.modSlot n f).focus = s.focus := rfl
@[simp] theorem State.modSlot_issue (s : State) (n : SlotId) (f : QueueSlot → QueueSlot) : (s.modSlot n f).issue = s.issue := rfl
@[simp] theorem State.modSlot_tiles (s : State) (n : SlotId) (f : QueueSlot → QueueSlot) : (s.modSlot n f).tiles = s.tiles := rfl
@[simp] theorem State.modSlot_drovers (s : State) (n : SlotId) (f : QueueSlot → QueueSlot) : (s.modSlot n f).drovers = s.drovers := rfl
@[simp] theorem State.modSlot_mem (s : State) (n : SlotId) (f : QueueSlot → QueueSlot) : (s.modSlot n f).mem = s.mem := rfl
@[simp] theorem State.modSlot_ports (s : State) (n : SlotId) (f : QueueSlot → QueueSlot) : (s.modSlot n f).ports = s.ports := rfl
@[simp] theorem State.modSlot_fns (s : State) (n : SlotId) (f : QueueSlot → QueueSlot) : (s.modSlot n f).fns = s.fns := rfl
@[simp] theorem State.modSlot_dev (s : State) (n : SlotId) (f : QueueSlot → QueueSlot) : (s.modSlot n f).dev = s.dev := rfl
@[simp] theorem State.modSlot_pads (s : State) (n : SlotId) (f : QueueSlot → QueueSlot) : (s.modSlot n f).pads = s.pads := rfl
@[simp] theorem State.modSlot_out (s : State) (n : SlotId) (f : QueueSlot → QueueSlot) : (s.modSlot n f).out = s.out := rfl
@[simp] theorem State.modSlot_faults (s : State) (n : SlotId) (f : QueueSlot → QueueSlot) : (s.modSlot n f).faults = s.faults := rfl
@[simp] theorem State.modSlot_calls (s : State) (n : SlotId) (f : QueueSlot → QueueSlot) : (s.modSlot n f).calls = s.calls := rfl
@[simp] theorem State.modSlot_buffers (s : State) (n : SlotId) (f : QueueSlot → QueueSlot) : (s.modSlot n f).buffers = s.buffers := rfl
@[simp] theorem State.modSlot_kept (s : State) (n : SlotId) (f : QueueSlot → QueueSlot) : (s.modSlot n f).kept = s.kept := rfl
@[simp] theorem State.modSlot_serial (s : State) (n : SlotId) (f : QueueSlot → QueueSlot) : (s.modSlot n f).serial = s.serial := rfl
@[simp] theorem State.modSlot_fresh (s : State) (n : SlotId) (f : QueueSlot → QueueSlot) : (s.modSlot n f).fresh = s.fresh := rfl

@[simp] theorem State.modFn_agenda (s : State) (n : Fin 17) (f : Fn → Fn) : (s.modFn n f).agenda = s.agenda := rfl
@[simp] theorem State.modFn_focus (s : State) (n : Fin 17) (f : Fn → Fn) : (s.modFn n f).focus = s.focus := rfl
@[simp] theorem State.modFn_issue (s : State) (n : Fin 17) (f : Fn → Fn) : (s.modFn n f).issue = s.issue := rfl
@[simp] theorem State.modFn_tiles (s : State) (n : Fin 17) (f : Fn → Fn) : (s.modFn n f).tiles = s.tiles := rfl
@[simp] theorem State.modFn_drovers (s : State) (n : Fin 17) (f : Fn → Fn) : (s.modFn n f).drovers = s.drovers := rfl
@[simp] theorem State.modFn_mem (s : State) (n : Fin 17) (f : Fn → Fn) : (s.modFn n f).mem = s.mem := rfl
@[simp] theorem State.modFn_ports (s : State) (n : Fin 17) (f : Fn → Fn) : (s.modFn n f).ports = s.ports := rfl
@[simp] theorem State.modFn_slots (s : State) (n : Fin 17) (f : Fn → Fn) : (s.modFn n f).slots = s.slots := rfl
@[simp] theorem State.modFn_dev (s : State) (n : Fin 17) (f : Fn → Fn) : (s.modFn n f).dev = s.dev := rfl
@[simp] theorem State.modFn_pads (s : State) (n : Fin 17) (f : Fn → Fn) : (s.modFn n f).pads = s.pads := rfl
@[simp] theorem State.modFn_out (s : State) (n : Fin 17) (f : Fn → Fn) : (s.modFn n f).out = s.out := rfl
@[simp] theorem State.modFn_faults (s : State) (n : Fin 17) (f : Fn → Fn) : (s.modFn n f).faults = s.faults := rfl
@[simp] theorem State.modFn_calls (s : State) (n : Fin 17) (f : Fn → Fn) : (s.modFn n f).calls = s.calls := rfl
@[simp] theorem State.modFn_buffers (s : State) (n : Fin 17) (f : Fn → Fn) : (s.modFn n f).buffers = s.buffers := rfl
@[simp] theorem State.modFn_kept (s : State) (n : Fin 17) (f : Fn → Fn) : (s.modFn n f).kept = s.kept := rfl
@[simp] theorem State.modFn_serial (s : State) (n : Fin 17) (f : Fn → Fn) : (s.modFn n f).serial = s.serial := rfl
@[simp] theorem State.modFn_fresh (s : State) (n : Fin 17) (f : Fn → Fn) : (s.modFn n f).fresh = s.fresh := rfl

@[simp] theorem State.modMemSys_agenda (s : State) (f : MemSys → MemSys) : (s.modMemSys f).agenda = s.agenda := rfl
@[simp] theorem State.modMemSys_focus (s : State) (f : MemSys → MemSys) : (s.modMemSys f).focus = s.focus := rfl
@[simp] theorem State.modMemSys_issue (s : State) (f : MemSys → MemSys) : (s.modMemSys f).issue = s.issue := rfl
@[simp] theorem State.modMemSys_tiles (s : State) (f : MemSys → MemSys) : (s.modMemSys f).tiles = s.tiles := rfl
@[simp] theorem State.modMemSys_drovers (s : State) (f : MemSys → MemSys) : (s.modMemSys f).drovers = s.drovers := rfl
@[simp] theorem State.modMemSys_ports (s : State) (f : MemSys → MemSys) : (s.modMemSys f).ports = s.ports := rfl
@[simp] theorem State.modMemSys_slots (s : State) (f : MemSys → MemSys) : (s.modMemSys f).slots = s.slots := rfl
@[simp] theorem State.modMemSys_fns (s : State) (f : MemSys → MemSys) : (s.modMemSys f).fns = s.fns := rfl
@[simp] theorem State.modMemSys_dev (s : State) (f : MemSys → MemSys) : (s.modMemSys f).dev = s.dev := rfl
@[simp] theorem State.modMemSys_pads (s : State) (f : MemSys → MemSys) : (s.modMemSys f).pads = s.pads := rfl
@[simp] theorem State.modMemSys_out (s : State) (f : MemSys → MemSys) : (s.modMemSys f).out = s.out := rfl
@[simp] theorem State.modMemSys_faults (s : State) (f : MemSys → MemSys) : (s.modMemSys f).faults = s.faults := rfl
@[simp] theorem State.modMemSys_calls (s : State) (f : MemSys → MemSys) : (s.modMemSys f).calls = s.calls := rfl
@[simp] theorem State.modMemSys_buffers (s : State) (f : MemSys → MemSys) : (s.modMemSys f).buffers = s.buffers := rfl
@[simp] theorem State.modMemSys_kept (s : State) (f : MemSys → MemSys) : (s.modMemSys f).kept = s.kept := rfl
@[simp] theorem State.modMemSys_serial (s : State) (f : MemSys → MemSys) : (s.modMemSys f).serial = s.serial := rfl
@[simp] theorem State.modMemSys_fresh (s : State) (f : MemSys → MemSys) : (s.modMemSys f).fresh = s.fresh := rfl

@[simp] theorem State.withMem_agenda (s : State) (r : MemSys × List OutMsg) : (s.withMem r).agenda = s.agenda := rfl
@[simp] theorem State.withMem_focus (s : State) (r : MemSys × List OutMsg) : (s.withMem r).focus = s.focus := rfl
@[simp] theorem State.withMem_issue (s : State) (r : MemSys × List OutMsg) : (s.withMem r).issue = s.issue := rfl
@[simp] theorem State.withMem_tiles (s : State) (r : MemSys × List OutMsg) : (s.withMem r).tiles = s.tiles := rfl
@[simp] theorem State.withMem_drovers (s : State) (r : MemSys × List OutMsg) : (s.withMem r).drovers = s.drovers := rfl
@[simp] theorem State.withMem_ports (s : State) (r : MemSys × List OutMsg) : (s.withMem r).ports = s.ports := rfl
@[simp] theorem State.withMem_slots (s : State) (r : MemSys × List OutMsg) : (s.withMem r).slots = s.slots := rfl
@[simp] theorem State.withMem_fns (s : State) (r : MemSys × List OutMsg) : (s.withMem r).fns = s.fns := rfl
@[simp] theorem State.withMem_dev (s : State) (r : MemSys × List OutMsg) : (s.withMem r).dev = s.dev := rfl
@[simp] theorem State.withMem_pads (s : State) (r : MemSys × List OutMsg) : (s.withMem r).pads = s.pads := rfl
@[simp] theorem State.withMem_faults (s : State) (r : MemSys × List OutMsg) : (s.withMem r).faults = s.faults := rfl
@[simp] theorem State.withMem_calls (s : State) (r : MemSys × List OutMsg) : (s.withMem r).calls = s.calls := rfl
@[simp] theorem State.withMem_buffers (s : State) (r : MemSys × List OutMsg) : (s.withMem r).buffers = s.buffers := rfl
@[simp] theorem State.withMem_kept (s : State) (r : MemSys × List OutMsg) : (s.withMem r).kept = s.kept := rfl
@[simp] theorem State.withMem_serial (s : State) (r : MemSys × List OutMsg) : (s.withMem r).serial = s.serial := rfl
@[simp] theorem State.withMem_fresh (s : State) (r : MemSys × List OutMsg) : (s.withMem r).fresh = s.fresh := rfl

@[simp] theorem State.emit_agenda (s : State) (l : List OutMsg) : (s.emit l).agenda = s.agenda := rfl
@[simp] theorem State.emit_focus (s : State) (l : List OutMsg) : (s.emit l).focus = s.focus := rfl
@[simp] theorem State.emit_issue (s : State) (l : List OutMsg) : (s.emit l).issue = s.issue := rfl
@[simp] theorem State.emit_tiles (s : State) (l : List OutMsg) : (s.emit l).tiles = s.tiles := rfl
@[simp] theorem State.emit_drovers (s : State) (l : List OutMsg) : (s.emit l).drovers = s.drovers := rfl
@[simp] theorem State.emit_mem (s : State) (l : List OutMsg) : (s.emit l).mem = s.mem := rfl
@[simp] theorem State.emit_ports (s : State) (l : List OutMsg) : (s.emit l).ports = s.ports := rfl
@[simp] theorem State.emit_slots (s : State) (l : List OutMsg) : (s.emit l).slots = s.slots := rfl
@[simp] theorem State.emit_fns (s : State) (l : List OutMsg) : (s.emit l).fns = s.fns := rfl
@[simp] theorem State.emit_dev (s : State) (l : List OutMsg) : (s.emit l).dev = s.dev := rfl
@[simp] theorem State.emit_pads (s : State) (l : List OutMsg) : (s.emit l).pads = s.pads := rfl
@[simp] theorem State.emit_faults (s : State) (l : List OutMsg) : (s.emit l).faults = s.faults := rfl
@[simp] theorem State.emit_calls (s : State) (l : List OutMsg) : (s.emit l).calls = s.calls := rfl
@[simp] theorem State.emit_buffers (s : State) (l : List OutMsg) : (s.emit l).buffers = s.buffers := rfl
@[simp] theorem State.emit_kept (s : State) (l : List OutMsg) : (s.emit l).kept = s.kept := rfl
@[simp] theorem State.emit_serial (s : State) (l : List OutMsg) : (s.emit l).serial = s.serial := rfl
@[simp] theorem State.emit_fresh (s : State) (l : List OutMsg) : (s.emit l).fresh = s.fresh := rfl

@[simp] theorem State.modCtx_agenda (s : State) (g : Agent) (f : Ctx → Ctx) : (s.modCtx g f).agenda = s.agenda := by cases g <;> rfl
@[simp] theorem State.modCtx_focus (s : State) (g : Agent) (f : Ctx → Ctx) : (s.modCtx g f).focus = s.focus := by cases g <;> rfl
@[simp] theorem State.modCtx_issue (s : State) (g : Agent) (f : Ctx → Ctx) : (s.modCtx g f).issue = s.issue := by cases g <;> rfl
@[simp] theorem State.modCtx_mem (s : State) (g : Agent) (f : Ctx → Ctx) : (s.modCtx g f).mem = s.mem := by cases g <;> rfl
@[simp] theorem State.modCtx_ports (s : State) (g : Agent) (f : Ctx → Ctx) : (s.modCtx g f).ports = s.ports := by cases g <;> rfl
@[simp] theorem State.modCtx_slots (s : State) (g : Agent) (f : Ctx → Ctx) : (s.modCtx g f).slots = s.slots := by cases g <;> rfl
@[simp] theorem State.modCtx_fns (s : State) (g : Agent) (f : Ctx → Ctx) : (s.modCtx g f).fns = s.fns := by cases g <;> rfl
@[simp] theorem State.modCtx_dev (s : State) (g : Agent) (f : Ctx → Ctx) : (s.modCtx g f).dev = s.dev := by cases g <;> rfl
@[simp] theorem State.modCtx_pads (s : State) (g : Agent) (f : Ctx → Ctx) : (s.modCtx g f).pads = s.pads := by cases g <;> rfl
@[simp] theorem State.modCtx_out (s : State) (g : Agent) (f : Ctx → Ctx) : (s.modCtx g f).out = s.out := by cases g <;> rfl
@[simp] theorem State.modCtx_faults (s : State) (g : Agent) (f : Ctx → Ctx) : (s.modCtx g f).faults = s.faults := by cases g <;> rfl
@[simp] theorem State.modCtx_calls (s : State) (g : Agent) (f : Ctx → Ctx) : (s.modCtx g f).calls = s.calls := by cases g <;> rfl
@[simp] theorem State.modCtx_serial (s : State) (g : Agent) (f : Ctx → Ctx) : (s.modCtx g f).serial = s.serial := by cases g <;> rfl
@[simp] theorem State.modCtx_fresh (s : State) (g : Agent) (f : Ctx → Ctx) : (s.modCtx g f).fresh = s.fresh := by cases g <;> rfl

@[simp] theorem State.modBank_agenda (s : State) (f : Bank → Bank) : (s.modBank f).agenda = s.agenda := State.modCtx_agenda ..
@[simp] theorem State.modBank_focus (s : State) (f : Bank → Bank) : (s.modBank f).focus = s.focus := State.modCtx_focus ..
@[simp] theorem State.modBank_issue (s : State) (f : Bank → Bank) : (s.modBank f).issue = s.issue := State.modCtx_issue ..
@[simp] theorem State.modBank_mem (s : State) (f : Bank → Bank) : (s.modBank f).mem = s.mem := State.modCtx_mem ..
@[simp] theorem State.modBank_ports (s : State) (f : Bank → Bank) : (s.modBank f).ports = s.ports := State.modCtx_ports ..
@[simp] theorem State.modBank_slots (s : State) (f : Bank → Bank) : (s.modBank f).slots = s.slots := State.modCtx_slots ..
@[simp] theorem State.modBank_fns (s : State) (f : Bank → Bank) : (s.modBank f).fns = s.fns := State.modCtx_fns ..
@[simp] theorem State.modBank_dev (s : State) (f : Bank → Bank) : (s.modBank f).dev = s.dev := State.modCtx_dev ..
@[simp] theorem State.modBank_pads (s : State) (f : Bank → Bank) : (s.modBank f).pads = s.pads := State.modCtx_pads ..
@[simp] theorem State.modBank_out (s : State) (f : Bank → Bank) : (s.modBank f).out = s.out := State.modCtx_out ..
@[simp] theorem State.modBank_faults (s : State) (f : Bank → Bank) : (s.modBank f).faults = s.faults := State.modCtx_faults ..
@[simp] theorem State.modBank_calls (s : State) (f : Bank → Bank) : (s.modBank f).calls = s.calls := State.modCtx_calls ..
@[simp] theorem State.modBank_serial (s : State) (f : Bank → Bank) : (s.modBank f).serial = s.serial := State.modCtx_serial ..
@[simp] theorem State.modBank_fresh (s : State) (f : Bank → Bank) : (s.modBank f).fresh = s.fresh := State.modCtx_fresh ..

@[simp] theorem State.modTail_agenda (s : State) (f : Tail → Tail) : (s.modTail f).agenda = s.agenda := State.modCtx_agenda ..
@[simp] theorem State.modTail_focus (s : State) (f : Tail → Tail) : (s.modTail f).focus = s.focus := State.modCtx_focus ..
@[simp] theorem State.modTail_issue (s : State) (f : Tail → Tail) : (s.modTail f).issue = s.issue := State.modCtx_issue ..
@[simp] theorem State.modTail_mem (s : State) (f : Tail → Tail) : (s.modTail f).mem = s.mem := State.modCtx_mem ..
@[simp] theorem State.modTail_ports (s : State) (f : Tail → Tail) : (s.modTail f).ports = s.ports := State.modCtx_ports ..
@[simp] theorem State.modTail_slots (s : State) (f : Tail → Tail) : (s.modTail f).slots = s.slots := State.modCtx_slots ..
@[simp] theorem State.modTail_fns (s : State) (f : Tail → Tail) : (s.modTail f).fns = s.fns := State.modCtx_fns ..
@[simp] theorem State.modTail_dev (s : State) (f : Tail → Tail) : (s.modTail f).dev = s.dev := State.modCtx_dev ..
@[simp] theorem State.modTail_pads (s : State) (f : Tail → Tail) : (s.modTail f).pads = s.pads := State.modCtx_pads ..
@[simp] theorem State.modTail_out (s : State) (f : Tail → Tail) : (s.modTail f).out = s.out := State.modCtx_out ..
@[simp] theorem State.modTail_faults (s : State) (f : Tail → Tail) : (s.modTail f).faults = s.faults := State.modCtx_faults ..
@[simp] theorem State.modTail_calls (s : State) (f : Tail → Tail) : (s.modTail f).calls = s.calls := State.modCtx_calls ..
@[simp] theorem State.modTail_serial (s : State) (f : Tail → Tail) : (s.modTail f).serial = s.serial := State.modCtx_serial ..
@[simp] theorem State.modTail_fresh (s : State) (f : Tail → Tail) : (s.modTail f).fresh = s.fresh := State.modCtx_fresh ..

@[simp] theorem State.result_agenda (s : State) (w : RegWrite) (fl : Flags) (u : FpUnit) (n : Nat) (v : Bool) : (s.result w fl u n v).agenda = s.agenda := State.modCtx_agenda ..
@[simp] theorem State.result_focus (s : State) (w : RegWrite) (fl : Flags) (u : FpUnit) (n : Nat) (v : Bool) : (s.result w fl u n v).focus = s.focus := State.modCtx_focus ..
@[simp] theorem State.result_issue (s : State) (w : RegWrite) (fl : Flags) (u : FpUnit) (n : Nat) (v : Bool) : (s.result w fl u n v).issue = s.issue := State.modCtx_issue ..
@[simp] theorem State.result_mem (s : State) (w : RegWrite) (fl : Flags) (u : FpUnit) (n : Nat) (v : Bool) : (s.result w fl u n v).mem = s.mem := State.modCtx_mem ..
@[simp] theorem State.result_ports (s : State) (w : RegWrite) (fl : Flags) (u : FpUnit) (n : Nat) (v : Bool) : (s.result w fl u n v).ports = s.ports := State.modCtx_ports ..
@[simp] theorem State.result_slots (s : State) (w : RegWrite) (fl : Flags) (u : FpUnit) (n : Nat) (v : Bool) : (s.result w fl u n v).slots = s.slots := State.modCtx_slots ..
@[simp] theorem State.result_fns (s : State) (w : RegWrite) (fl : Flags) (u : FpUnit) (n : Nat) (v : Bool) : (s.result w fl u n v).fns = s.fns := State.modCtx_fns ..
@[simp] theorem State.result_dev (s : State) (w : RegWrite) (fl : Flags) (u : FpUnit) (n : Nat) (v : Bool) : (s.result w fl u n v).dev = s.dev := State.modCtx_dev ..
@[simp] theorem State.result_pads (s : State) (w : RegWrite) (fl : Flags) (u : FpUnit) (n : Nat) (v : Bool) : (s.result w fl u n v).pads = s.pads := State.modCtx_pads ..
@[simp] theorem State.result_out (s : State) (w : RegWrite) (fl : Flags) (u : FpUnit) (n : Nat) (v : Bool) : (s.result w fl u n v).out = s.out := State.modCtx_out ..
@[simp] theorem State.result_faults (s : State) (w : RegWrite) (fl : Flags) (u : FpUnit) (n : Nat) (v : Bool) : (s.result w fl u n v).faults = s.faults := State.modCtx_faults ..
@[simp] theorem State.result_calls (s : State) (w : RegWrite) (fl : Flags) (u : FpUnit) (n : Nat) (v : Bool) : (s.result w fl u n v).calls = s.calls := State.modCtx_calls ..
@[simp] theorem State.result_serial (s : State) (w : RegWrite) (fl : Flags) (u : FpUnit) (n : Nat) (v : Bool) : (s.result w fl u n v).serial = s.serial := State.modCtx_serial ..
@[simp] theorem State.result_fresh (s : State) (w : RegWrite) (fl : Flags) (u : FpUnit) (n : Nat) (v : Bool) : (s.result w fl u n v).fresh = s.fresh := State.modCtx_fresh ..

@[simp] theorem State.modNet_agenda (s : State) (t : TileId) (f : PadNet → PadNet) : (s.modNet t f).agenda = s.agenda := by unfold State.modNet; split <;> rfl
@[simp] theorem State.modNet_focus (s : State) (t : TileId) (f : PadNet → PadNet) : (s.modNet t f).focus = s.focus := by unfold State.modNet; split <;> rfl
@[simp] theorem State.modNet_issue (s : State) (t : TileId) (f : PadNet → PadNet) : (s.modNet t f).issue = s.issue := by unfold State.modNet; split <;> rfl
@[simp] theorem State.modNet_tiles (s : State) (t : TileId) (f : PadNet → PadNet) : (s.modNet t f).tiles = s.tiles := by unfold State.modNet; split <;> rfl
@[simp] theorem State.modNet_drovers (s : State) (t : TileId) (f : PadNet → PadNet) : (s.modNet t f).drovers = s.drovers := by unfold State.modNet; split <;> rfl
@[simp] theorem State.modNet_mem (s : State) (t : TileId) (f : PadNet → PadNet) : (s.modNet t f).mem = s.mem := by unfold State.modNet; split <;> rfl
@[simp] theorem State.modNet_ports (s : State) (t : TileId) (f : PadNet → PadNet) : (s.modNet t f).ports = s.ports := by unfold State.modNet; split <;> rfl
@[simp] theorem State.modNet_slots (s : State) (t : TileId) (f : PadNet → PadNet) : (s.modNet t f).slots = s.slots := by unfold State.modNet; split <;> rfl
@[simp] theorem State.modNet_fns (s : State) (t : TileId) (f : PadNet → PadNet) : (s.modNet t f).fns = s.fns := by unfold State.modNet; split <;> rfl
@[simp] theorem State.modNet_dev (s : State) (t : TileId) (f : PadNet → PadNet) : (s.modNet t f).dev = s.dev := by unfold State.modNet; split <;> rfl
@[simp] theorem State.modNet_out (s : State) (t : TileId) (f : PadNet → PadNet) : (s.modNet t f).out = s.out := by unfold State.modNet; split <;> rfl
@[simp] theorem State.modNet_faults (s : State) (t : TileId) (f : PadNet → PadNet) : (s.modNet t f).faults = s.faults := by unfold State.modNet; split <;> rfl
@[simp] theorem State.modNet_calls (s : State) (t : TileId) (f : PadNet → PadNet) : (s.modNet t f).calls = s.calls := by unfold State.modNet; split <;> rfl
@[simp] theorem State.modNet_serial (s : State) (t : TileId) (f : PadNet → PadNet) : (s.modNet t f).serial = s.serial := by unfold State.modNet; split <;> rfl
@[simp] theorem State.modNet_fresh (s : State) (t : TileId) (f : PadNet → PadNet) : (s.modNet t f).fresh = s.fresh := by unfold State.modNet; split <;> rfl

@[simp] theorem State.modPort_agenda (s : State) (k : Bool) (f : Port → Port) : (s.modPort k f).agenda = s.agenda := by unfold State.modPort; first | rfl | (split <;> rfl)
@[simp] theorem State.modPort_focus (s : State) (k : Bool) (f : Port → Port) : (s.modPort k f).focus = s.focus := by unfold State.modPort; first | rfl | (split <;> rfl)
@[simp] theorem State.modPort_issue (s : State) (k : Bool) (f : Port → Port) : (s.modPort k f).issue = s.issue := by unfold State.modPort; first | rfl | (split <;> rfl)
@[simp] theorem State.modPort_tiles (s : State) (k : Bool) (f : Port → Port) : (s.modPort k f).tiles = s.tiles := by unfold State.modPort; first | rfl | (split <;> rfl)
@[simp] theorem State.modPort_drovers (s : State) (k : Bool) (f : Port → Port) : (s.modPort k f).drovers = s.drovers := by unfold State.modPort; first | rfl | (split <;> rfl)
@[simp] theorem State.modPort_mem (s : State) (k : Bool) (f : Port → Port) : (s.modPort k f).mem = s.mem := by unfold State.modPort; first | rfl | (split <;> rfl)
@[simp] theorem State.modPort_slots (s : State) (k : Bool) (f : Port → Port) : (s.modPort k f).slots = s.slots := by unfold State.modPort; first | rfl | (split <;> rfl)
@[simp] theorem State.modPort_fns (s : State) (k : Bool) (f : Port → Port) : (s.modPort k f).fns = s.fns := by unfold State.modPort; first | rfl | (split <;> rfl)
@[simp] theorem State.modPort_dev (s : State) (k : Bool) (f : Port → Port) : (s.modPort k f).dev = s.dev := by unfold State.modPort; first | rfl | (split <;> rfl)
@[simp] theorem State.modPort_pads (s : State) (k : Bool) (f : Port → Port) : (s.modPort k f).pads = s.pads := by unfold State.modPort; first | rfl | (split <;> rfl)
@[simp] theorem State.modPort_out (s : State) (k : Bool) (f : Port → Port) : (s.modPort k f).out = s.out := by unfold State.modPort; first | rfl | (split <;> rfl)
@[simp] theorem State.modPort_faults (s : State) (k : Bool) (f : Port → Port) : (s.modPort k f).faults = s.faults := by unfold State.modPort; first | rfl | (split <;> rfl)
@[simp] theorem State.modPort_calls (s : State) (k : Bool) (f : Port → Port) : (s.modPort k f).calls = s.calls := by unfold State.modPort; first | rfl | (split <;> rfl)
@[simp] theorem State.modPort_serial (s : State) (k : Bool) (f : Port → Port) : (s.modPort k f).serial = s.serial := by unfold State.modPort; first | rfl | (split <;> rfl)
@[simp] theorem State.modPort_fresh (s : State) (k : Bool) (f : Port → Port) : (s.modPort k f).fresh = s.fresh := by unfold State.modPort; first | rfl | (split <;> rfl)

/-! Reads after updates. -/

@[simp] theorem State.tile_modTile_same (s : State) (t : TileId) (f : Tile → Tile) : (s.modTile t f).tile t = f (s.tile t) := by
  simp [State.tile, State.modTile]

theorem State.tile_modTile (s : State) (t u : TileId) (f : Tile → Tile) :
    (s.modTile t f).tile u = if u = t then f (s.tile t) else s.tile u := by
  by_cases h : u = t
  · subst h; simp
  · have : t.val ≠ u.val := fun e => h (Fin.ext e.symm)
    simp [State.tile, State.modTile, h, this]

@[simp] theorem State.drover_modTile (s : State) (t : TileId) (n : SlotId) (f : Tile → Tile) : (s.modTile t f).drover n = s.drover n := rfl
@[simp] theorem State.tile_modDrover (s : State) (t : TileId) (n : SlotId) (f : Drover → Drover) : (s.modDrover n f).tile t = s.tile t := rfl

@[simp] theorem State.drover_modDrover_same (s : State) (n : SlotId) (f : Drover → Drover) : (s.modDrover n f).drover n = f (s.drover n) := by
  simp [State.drover, State.modDrover]

theorem State.drover_modDrover (s : State) (n m : SlotId) (f : Drover → Drover) :
    (s.modDrover n f).drover m = if m = n then f (s.drover n) else s.drover m := by
  by_cases h : m = n
  · subst h; simp
  · have : n.val ≠ m.val := fun e => h (Fin.ext e.symm)
    simp [State.drover, State.modDrover, h, this]

@[simp] theorem Tile.ctx_modCtx_same (T : Tile) (c : Fin 4) (f : Ctx → Ctx) : (T.modCtx c f).ctx c = f (T.ctx c) := by
  simp [Tile.ctx, Tile.modCtx]

theorem Tile.ctx_modCtx (T : Tile) (c d : Fin 4) (f : Ctx → Ctx) :
    (T.modCtx c f).ctx d = if d = c then f (T.ctx c) else T.ctx d := by
  by_cases h : d = c
  · subst h; simp
  · have : c.val ≠ d.val := fun e => h (Fin.ext e.symm)
    simp [Tile.ctx, Tile.modCtx, h, this]

@[simp] theorem Tile.modCtx_mem (T : Tile) (c : Fin 4) (f : Ctx → Ctx) : (T.modCtx c f).mem = T.mem := rfl
@[simp] theorem Tile.modCtx_pr (T : Tile) (c : Fin 4) (f : Ctx → Ctx) : (T.modCtx c f).pr = T.pr := rfl
@[simp] theorem Tile.modCtx_cycle (T : Tile) (c : Fin 4) (f : Ctx → Ctx) : (T.modCtx c f).cycle = T.cycle := rfl
@[simp] theorem Tile.modCtx_pad (T : Tile) (c : Fin 4) (f : Ctx → Ctx) : (T.modCtx c f).pad = T.pad := rfl

@[simp] theorem State.ctx_modCtx_same (s : State) (g : Agent) (f : Ctx → Ctx) : (s.modCtx g f).ctx g = f (s.ctx g) := by
  cases g <;> simp [State.ctx, State.modCtx]

/-- An update of one agent's registers leaves every other agent's. -/
theorem State.ctx_modCtx (s : State) (g h : Agent) (f : Ctx → Ctx) :
    (s.modCtx g f).ctx h = if h = g then f (s.ctx g) else s.ctx h := by
  by_cases e : h = g
  · subst e; simp
  · rw [if_neg e]
    cases g <;> cases h <;> simp [State.ctx, State.modCtx] at e ⊢
    · rename_i t c u d
      rw [State.tile_modTile]
      split
      · next h =>
        subst h
        rw [Tile.ctx_modCtx, if_neg (by simpa using e)]
      · rfl
    · rename_i n m
      rw [State.drover_modDrover, if_neg e]

/-- Registers elsewhere: what each tile holds beside its contexts is as it was. -/
@[simp] theorem State.tile_modCtx_mem (s : State) (g : Agent) (t : TileId) (f : Ctx → Ctx) :
    ((s.modCtx g f).tile t).mem = (s.tile t).mem := by
  cases g with
  | ctx u c =>
    simp only [State.modCtx, State.tile_modTile]
    split
    · next h => subst h; rfl
    · rfl
  | drover n => rfl

@[simp] theorem State.slot_modSlot_same (s : State) (n : SlotId) (f : QueueSlot → QueueSlot) : (s.modSlot n f).slot n = f (s.slot n) := by
  simp [State.slot, State.modSlot]

@[simp] theorem State.fn_modFn_same (s : State) (n : Fin 17) (f : Fn → Fn) : (s.modFn n f).fn n = f (s.fn n) := by
  simp [State.fn, State.modFn]

/-! The bundle's snapshot stands while its syllables perform (R130). -/

@[simp] theorem State.bank_modCtx (s : State) (g : Agent) (f : Ctx → Ctx) : (s.modCtx g f).bank = s.bank := by
  simp [State.bank]

@[simp] theorem State.bank_modTile (s : State) (t : TileId) (f : Tile → Tile) : (s.modTile t f).bank = s.bank := rfl

@[simp] theorem State.guardTrue_modCtx (s : State) (g : Agent) (f : Ctx → Ctx) (i : Instr) :
    (s.modCtx g f).guardTrue i = s.guardTrue i := by
  simp [State.guardTrue, State.P]

@[simp] theorem State.guardTrue_modTile (s : State) (t : TileId) (f : Tile → Tile) (i : Instr) :
    (s.modTile t f).guardTrue i = s.guardTrue i := rfl

/-! Registers that discard writes or read as a constant (R93). -/

@[simp] theorem Bank.xr_zero (b : Bank) : b.xr 0 = 0 := rfl
@[simp] theorem Bank.pred_zero (b : Bank) : b.pred 0 = true := rfl
@[simp] theorem Bank.write_x0 (b : Bank) (v : Word) : b.write (.x 0 v) = b := rfl
@[simp] theorem Bank.write_p0 (b : Bank) (v : Bool) : b.write (.p 0 v) = b := rfl

theorem Bank.xr_write (b : Bank) (n m : Fin 32) (v : Word) :
    (b.write (.x n v)).xr m = if m = n ∧ n ≠ 0 then v else b.xr m := by
  by_cases hn : n = 0
  · subst hn; simp
  · by_cases h : m = n
    · subst h; simp [Bank.write, Bank.xr, hn]
    · have h' : n.val ≠ m.val := fun e => h (Fin.ext e.symm)
      simp [Bank.write, Bank.xr, hn, h, h']

/-! What a syllable can do (R96, R321). -/

/-- In a bundle that has issued, a syllable performs or, its guard false, does nothing. -/
theorem syllable_cleared {i : Instr} {p : State → State} {s : State} (h : s.issue.cleared = true) :
    syllable i p s = .next (if s.guardTrue i then p s else s) := by
  unfold syllable; rw [if_pos h]; split <;> rfl

/-- A syllable in a bundle that has issued whose guard is true. -/
theorem syllable_runs {i : Instr} {p : State → State} {s : State} (h : s.issue.cleared = true) (g : s.guardTrue i = true) :
    syllable i p s = .next (p s) := by
  rw [syllable_cleared h, if_pos g]

/-- A syllable never stops the machine. -/
theorem syllable_next (i : Instr) (p : State → State) (s : State) : ∃ t, syllable i p s = .next t := by
  unfold syllable
  split
  · split <;> exact ⟨_, rfl⟩
  · dsimp only
    split
    · exact ⟨_, rfl⟩
    · split
      · split <;> exact ⟨_, rfl⟩
      · exact ⟨_, rfl⟩

/-! A hold set or cleared changes the domain, the agenda and which curtains are due (R73). -/

@[simp] theorem State.setHold_focus (s : State) (d : Fin 8) (h : Bool) : (s.setHold d h).focus = s.focus := by
  unfold State.setHold; dsimp only; repeat' split
  all_goals rfl
@[simp] theorem State.setHold_issue (s : State) (d : Fin 8) (h : Bool) : (s.setHold d h).issue = s.issue := by
  unfold State.setHold; dsimp only; repeat' split
  all_goals rfl
@[simp] theorem State.setHold_tiles (s : State) (d : Fin 8) (h : Bool) : (s.setHold d h).tiles = s.tiles := by
  unfold State.setHold; dsimp only; repeat' split
  all_goals rfl
@[simp] theorem State.setHold_drovers (s : State) (d : Fin 8) (h : Bool) : (s.setHold d h).drovers = s.drovers := by
  unfold State.setHold; dsimp only; repeat' split
  all_goals rfl
@[simp] theorem State.setHold_ports (s : State) (d : Fin 8) (h : Bool) : (s.setHold d h).ports = s.ports := by
  unfold State.setHold; dsimp only; repeat' split
  all_goals rfl
@[simp] theorem State.setHold_slots (s : State) (d : Fin 8) (h : Bool) : (s.setHold d h).slots = s.slots := by
  unfold State.setHold; dsimp only; repeat' split
  all_goals rfl
@[simp] theorem State.setHold_fns (s : State) (d : Fin 8) (h : Bool) : (s.setHold d h).fns = s.fns := by
  unfold State.setHold; dsimp only; repeat' split
  all_goals rfl
@[simp] theorem State.setHold_dev (s : State) (d : Fin 8) (h : Bool) : (s.setHold d h).dev = s.dev := by
  unfold State.setHold; dsimp only; repeat' split
  all_goals rfl
@[simp] theorem State.setHold_out (s : State) (d : Fin 8) (h : Bool) : (s.setHold d h).out = s.out := by
  unfold State.setHold; dsimp only; repeat' split
  all_goals rfl
@[simp] theorem State.setHold_faults (s : State) (d : Fin 8) (h : Bool) : (s.setHold d h).faults = s.faults := by
  unfold State.setHold; dsimp only; repeat' split
  all_goals rfl
@[simp] theorem State.setHold_calls (s : State) (d : Fin 8) (h : Bool) : (s.setHold d h).calls = s.calls := by
  unfold State.setHold; dsimp only; repeat' split
  all_goals rfl
@[simp] theorem State.setHold_buffers (s : State) (d : Fin 8) (h : Bool) : (s.setHold d h).buffers = s.buffers := by
  unfold State.setHold; dsimp only; repeat' split
  all_goals rfl
@[simp] theorem State.setHold_kept (s : State) (d : Fin 8) (h : Bool) : (s.setHold d h).kept = s.kept := by
  unfold State.setHold; dsimp only; repeat' split
  all_goals rfl
@[simp] theorem State.setHold_serial (s : State) (d : Fin 8) (h : Bool) : (s.setHold d h).serial = s.serial := by
  unfold State.setHold; dsimp only; repeat' split
  all_goals rfl
@[simp] theorem State.setHold_fresh (s : State) (d : Fin 8) (h : Bool) : (s.setHold d h).fresh = s.fresh := by
  unfold State.setHold; dsimp only; repeat' split
  all_goals rfl

@[simp] theorem State.setHold_same (s : State) (d : Fin 8) (h : Bool) (e : (s.mem.dom d).hold = h) : s.setHold d h = s := by
  simp [State.setHold, e]

/-- Where no conversion waits, none goes on. -/
@[simp] theorem State.goOnConversions_none (s : State) (h : s.mem.converting = none) : s.goOnConversions = s := by
  simp [State.goOnConversions, h]

end Sys2Proof.Machine
end

