-- ==== Sys2Proof/Laws/Memory.lean ====
section
/-!
SUPPORT. Every operation on memory keeps its canonical form (Memory.wf), and reset has it; then every operation of
the state that the steps are built from, and what a read of the drover holds.
-/
namespace Sys2Proof.Machine

theorem Memory.wf_reset : Memory.wf MemSys.reset = true := rfl

/-- The form depends on the bytes alone. -/
theorem Memory.wf_congr {m n : MemSys} (h : n.bytes = m.bytes) (w : Memory.wf m = true) : Memory.wf n = true := by
  unfold Memory.wf; rw [h]; exact w

/-- A fold of operations that keep the form. -/
theorem Memory.wf_foldl {β : Type} {f : MemSys → β → MemSys} (step : ∀ m b, Memory.wf m = true → Memory.wf (f m b) = true) :
    ∀ (l : List β) (m : MemSys), Memory.wf m = true → Memory.wf (l.foldl f m) = true
  | [], _, w => w
  | b :: r, m, w => Memory.wf_foldl step r _ (step m b w)

theorem Memory.wf_puts {m n : MemSys} {l : List Host.Cell} (h : n.bytes = Sparse.puts 0 m.bytes l) (w : Memory.wf m = true) :
    Memory.wf n = true := by
  unfold Memory.wf; rw [h]; exact Sparse.puts_wf w

theorem MemSys.rekey_wf (m : MemSys) (line : Nat) (w : Memory.wf m = true) : Memory.wf (m.rekey line) = true := by
  unfold MemSys.rekey
  split
  · exact w
  · exact (Sparse.puts_wf w : Sparse.wf 0 (Sparse.puts 0 m.bytes _) = true)

theorem MemSys.evictHalf_wf (m : MemSys) (h : HostHalf) (w : Memory.wf m = true) : Memory.wf (m.evictHalf h).1 = true := by
  unfold MemSys.evictHalf
  dsimp only
  split
  · exact (Sparse.puts_wf w : Sparse.wf 0 (Sparse.puts 0 m.bytes _) = true)
  · exact Memory.wf_congr (m := m) rfl w
  · exact Memory.wf_congr (m := m) rfl w

theorem MemSys.evictAll_wf (m : MemSys) (l : List HostHalf) (w : Memory.wf m = true) : Memory.wf (m.evictAll l).1 = true := by
  unfold MemSys.evictAll
  suffices ∀ (l : List HostHalf) (acc : MemSys × List OutMsg), Memory.wf acc.1 = true →
      Memory.wf (l.foldl (fun acc h => ((acc.1.evictHalf h).1, acc.2 ++ (acc.1.evictHalf h).2)) acc).1 = true from this l (m, []) w
  intro l
  induction l with
  | nil => intro acc w; exact w
  | cons h r ih => intro acc w; exact ih _ (MemSys.evictHalf_wf _ h w)

theorem MemSys.evictOthers_wf (m : MemSys) (pa : Nat) (o : OwnerTag) (w : Memory.wf m = true) :
    Memory.wf (m.evictOthers pa o).1 = true := MemSys.evictAll_wf _ _ w

theorem MemSys.setWindow_wf (m : MemSys) (x : RedWindow) (w : Memory.wf m = true) : Memory.wf (m.setWindow x) = true :=
  Memory.wf_congr (m := m) rfl w

theorem MemSys.clearBad_wf (m : MemSys) (pa n : Nat) (w : Memory.wf m = true) : Memory.wf (m.clearBad pa n) = true :=
  Memory.wf_congr (m := m) rfl w

theorem MemSys.putBytes_wf (m : MemSys) (pa : Nat) (data : List Byte) (w : Memory.wf m = true) : Memory.wf (m.putBytes pa data) = true :=
  (Sparse.puts_wf w : Sparse.wf 0 (Sparse.puts 0 m.bytes _) = true)

theorem MemSys.writePlain_wf (m : MemSys) (pa : Nat) (data : List Byte) (w : Memory.wf m = true) :
    Memory.wf (m.writePlain pa data) = true := by
  unfold MemSys.writePlain
  split
  · exact MemSys.putBytes_wf _ _ _ (MemSys.rekey_wf _ _ w)
  · split
    · exact Memory.wf_congr (m := m) rfl w
    · exact MemSys.putBytes_wf _ _ _ w
  all_goals exact MemSys.putBytes_wf _ _ _ w

theorem MemSys.writeAt_wf (m : MemSys) (pa : Nat) (data : List Byte) (w : Memory.wf m = true) :
    Memory.wf (m.writeAt pa data) = true := by
  unfold MemSys.writeAt
  split
  · exact MemSys.setWindow_wf _ _ w
  · exact MemSys.writePlain_wf _ _ _ w

theorem MemSys.write_wf (m : MemSys) (pa : Nat) (data : List Byte) (w : Memory.wf m = true) : Memory.wf (m.write pa data) = true :=
  MemSys.writeAt_wf _ _ _ (MemSys.clearBad_wf _ _ _ w)

theorem MemSys.backInv_wf (m : MemSys) (pa : Nat) (w : Memory.wf m = true) : Memory.wf (m.backInv pa).1 = true := by
  unfold MemSys.backInv MemSys.backInvLine
  split
  · exact Memory.wf_congr (m := m) rfl w
  · exact w

theorem MemSys.allocate_wf {o : OwnerTag} {d : Fin 8} :
    ∀ {l : List Nat} {m n : MemSys}, m.allocate o d l = some n → Memory.wf m = true → Memory.wf n = true
  | [], m, n, h, w => by simp only [MemSys.allocate, Option.some.injEq] at h; exact h ▸ w
  | x :: r, m, n, h, w => by
    unfold MemSys.allocate at h
    split at h
    · exact MemSys.allocate_wf h w
    · split at h
      · exact MemSys.allocate_wf h (Memory.wf_congr (m := m) rfl w)
      · cases h

theorem MemSys.drop_wf (m : MemSys) (line : Nat) (w : Memory.wf m = true) : Memory.wf (m.drop line) = true := by
  unfold MemSys.drop
  split
  · exact Sparse.filter_wf w
  · exact w

theorem MemSys.dropDomain_wf (m : MemSys) (o : OwnerTag) (d : Fin 8) (w : Memory.wf m = true) : Memory.wf (m.dropDomain o d) = true :=
  Memory.wf_foldl (fun m l w => MemSys.drop_wf m l.line w) _ _ w

theorem MemSys.setUnits_wf (m : MemSys) (o : OwnerTag) (d : Fin 8) (u : Nat) (w : Memory.wf m = true) :
    Memory.wf (m.setUnits o d u) = true := Memory.wf_congr (m := m) rfl w

theorem MemSys.lowerUnit_wf (m : MemSys) (o : OwnerTag) (d : Fin 8) (w : Memory.wf m = true) : Memory.wf (m.lowerUnit o d) = true := by
  unfold MemSys.lowerUnit
  dsimp only
  split
  · exact MemSys.dropDomain_wf _ _ _ (MemSys.setUnits_wf _ _ _ _ w)
  · exact MemSys.setUnits_wf _ _ _ _ w

theorem MemSys.convert_wf (m : MemSys) (o : OwnerTag) (d : Fin 8) (a pa : Nat) (w : Memory.wf m = true) :
    Memory.wf (m.convert o d a pa) = true := by
  unfold MemSys.convert
  exact MemSys.lowerUnit_wf _ _ _ (Sparse.puts_wf (Sparse.filter_wf w))

theorem MemSys.reduceAdd_wf (m : MemSys) (pa : Nat) (bf : Bool) (data : List Byte) (w : Memory.wf m = true) :
    Memory.wf (m.reduceAdd pa bf data) = true := by
  unfold MemSys.reduceAdd
  refine Memory.wf_foldl (fun m j w => ?_) _ _ w
  split
  · exact MemSys.setWindow_wf _ _ w
  · exact w

theorem MemSys.closeWindow_wf (m : MemSys) (x : RedWindow) (w : Memory.wf m = true) : Memory.wf (m.closeWindow x) = true :=
  Memory.wf_foldl (fun _ _ w => MemSys.write_wf _ _ _ w) _ _ (Memory.wf_congr (m := m) rfl w)

theorem MemSys.openWindow_wf (m : MemSys) (o : OwnerTag) (va len : Nat) (bf : Bool) (b : Int) (w : Memory.wf m = true) :
    Memory.wf (m.openWindow o va len bf b).2 = true := by
  unfold MemSys.openWindow
  dsimp only
  repeat' split
  all_goals exact w

theorem MemSys.reserve_wf (m : MemSys) (o : OwnerTag) (d : Fin 8) (u : Nat) (w : Memory.wf m = true) :
    Memory.wf (m.reserve o d u).2 = true := by
  unfold MemSys.reserve
  dsimp only
  repeat' split
  all_goals exact w

theorem MemSys.unreserve_wf (m : MemSys) (o : OwnerTag) (d : Fin 8) (u : Nat) (w : Memory.wf m = true) :
    Memory.wf (m.unreserve o d u).2 = true := by
  unfold MemSys.unreserve
  dsimp only
  repeat' split
  all_goals first | exact w | exact MemSys.dropDomain_wf _ _ _ (Memory.wf_congr (m := m) rfl w)

theorem MemSys.releaseGrants_wf (m : MemSys) (f : Nat × OwnerTag → Bool) (w : Memory.wf m = true) :
    Memory.wf (m.releaseGrants f) = true := by
  unfold MemSys.releaseGrants
  dsimp only
  exact Memory.wf_congr rfl (Memory.wf_foldl (fun m l w => MemSys.drop_wf m l.line w) _ _ w)

/-- A part starts within the bytes, or where there are none. -/
theorem halfParts_within {va n : Nat} {x : Nat × Nat} (h : x ∈ halfParts va n) : x.1 ≤ n := by
  simp only [halfParts, List.mem_map, List.mem_range] at h
  obtain ⟨k, hk, rfl⟩ := h
  by_cases z : k = 0
  · simp [z]
  · split at hk
    · simp at hk
    · simp only [z, if_false]; omega

/-- A fold whose every step leaves the state as it is. -/
theorem foldl_stays {α β : Type} {f : α → β → α} {s : α} : ∀ {l : List β}, (∀ x ∈ l, f s x = s) → l.foldl f s = s
  | [], _ => rfl
  | x :: r, h => by rw [List.foldl_cons, h x (by simp)]; exact foldl_stays fun y hy => h y (by simp [hy])

/-- Only halves of host memory are held: where every byte lies elsewhere, nothing changes. -/
theorem State.holdVa_device {s : State} {o : OwnerTag} {va n : Nat}
    (h : ∀ x ∈ halfParts va n, ∀ e large p, s.mem.walk o (va + x.1) = .leaf e large p →
      s.mem.place (leafPa e large (va + x.1)) ≠ .host) : s.holdVa o va n = s := by
  unfold State.holdVa
  refine foldl_stays fun x hx => ?_
  split
  · rename_i e large p w
    simp [h x hx e large p w]
  · rfl

end Sys2Proof.Machine
end

