-- ==== Sys2Proof/Laws/PerInstr.lean ====
section
/-!
SUPPORT. What holds of every instruction as syntax, one lemma per constructor.
-/
namespace Sys2Proof.Laws.Encoding

/-- An instruction has a slot class exactly if it has a guard (R90), and one without either, a step of the hardware,
has no syllable. -/
def Statement (i : Instr) : Prop := i.slotClass.isSome = i.guard?.isSome ∧ (i.slotClass = none → i.encode = 0)

theorem br : ∀ a0 a1, Statement (.br a0 a1) := fun _ _ => ⟨rfl, fun h => nomatch h⟩
theorem brp : ∀ a0 a1 a2 a3, Statement (.brp a0 a1 a2 a3) := fun _ _ _ _ => ⟨rfl, fun h => nomatch h⟩
theorem brx : ∀ a0 a1 a2, Statement (.brx a0 a1 a2) := fun _ _ _ => ⟨rfl, fun h => nomatch h⟩
theorem call : ∀ a0 a1, Statement (.call a0 a1) := fun _ _ => ⟨rfl, fun h => nomatch h⟩
theorem callx : ∀ a0 a1 a2 a3, Statement (.callx a0 a1 a2 a3) := fun _ _ _ _ => ⟨rfl, fun h => nomatch h⟩
theorem ret : ∀ a0 a1, Statement (.ret a0 a1) := fun _ _ => ⟨rfl, fun h => nomatch h⟩
theorem loop : ∀ a0 a1 a2 a3, Statement (.loop a0 a1 a2 a3) := fun _ _ _ _ => ⟨rfl, fun h => nomatch h⟩
theorem loopx : ∀ a0 a1 a2 a3, Statement (.loopx a0 a1 a2 a3) := fun _ _ _ _ => ⟨rfl, fun h => nomatch h⟩
theorem close : ∀ a0, Statement (.close a0) := fun _ => ⟨rfl, fun h => nomatch h⟩
theorem yield : ∀ a0, Statement (.yield a0) := fun _ => ⟨rfl, fun h => nomatch h⟩
theorem endt : ∀ a0, Statement (.endt a0) := fun _ => ⟨rfl, fun h => nomatch h⟩
theorem condw : ∀ a0 a1 a2 a3, Statement (.condw a0 a1 a2 a3) := fun _ _ _ _ => ⟨rfl, fun h => nomatch h⟩
theorem token : ∀ a0 a1 a2, Statement (.token a0 a1 a2) := fun _ _ _ => ⟨rfl, fun h => nomatch h⟩
theorem trap : ∀ a0 a1, Statement (.trap a0 a1) := fun _ _ => ⟨rfl, fun h => nomatch h⟩
theorem sysc : ∀ a0 a1, Statement (.sysc a0 a1) := fun _ _ => ⟨rfl, fun h => nomatch h⟩
theorem eret : ∀ a0, Statement (.eret a0) := fun _ => ⟨rfl, fun h => nomatch h⟩
theorem csrrd : ∀ a0 a1 a2, Statement (.csrrd a0 a1 a2) := fun _ _ _ => ⟨rfl, fun h => nomatch h⟩
theorem csrwr : ∀ a0 a1 a2 a3, Statement (.csrwr a0 a1 a2 a3) := fun _ _ _ _ => ⟨rfl, fun h => nomatch h⟩
theorem csrset : ∀ a0 a1 a2 a3, Statement (.csrset a0 a1 a2 a3) := fun _ _ _ _ => ⟨rfl, fun h => nomatch h⟩
theorem csrclr : ∀ a0 a1 a2 a3, Statement (.csrclr a0 a1 a2 a3) := fun _ _ _ _ => ⟨rfl, fun h => nomatch h⟩
theorem add : ∀ a0 a1 a2 a3 a4, Statement (.add a0 a1 a2 a3 a4) := fun _ _ _ _ _ => ⟨rfl, fun h => nomatch h⟩
theorem addi : ∀ a0 a1 a2 a3 a4, Statement (.addi a0 a1 a2 a3 a4) := fun _ _ _ _ _ => ⟨rfl, fun h => nomatch h⟩
theorem sub : ∀ a0 a1 a2 a3 a4, Statement (.sub a0 a1 a2 a3 a4) := fun _ _ _ _ _ => ⟨rfl, fun h => nomatch h⟩
theorem mul : ∀ a0 a1 a2 a3 a4, Statement (.mul a0 a1 a2 a3 a4) := fun _ _ _ _ _ => ⟨rfl, fun h => nomatch h⟩
theorem mulh : ∀ a0 a1 a2 a3 a4, Statement (.mulh a0 a1 a2 a3 a4) := fun _ _ _ _ _ => ⟨rfl, fun h => nomatch h⟩
theorem mulhu : ∀ a0 a1 a2 a3 a4, Statement (.mulhu a0 a1 a2 a3 a4) := fun _ _ _ _ _ => ⟨rfl, fun h => nomatch h⟩
theorem div : ∀ a0 a1 a2 a3 a4, Statement (.div a0 a1 a2 a3 a4) := fun _ _ _ _ _ => ⟨rfl, fun h => nomatch h⟩
theorem divu : ∀ a0 a1 a2 a3 a4, Statement (.divu a0 a1 a2 a3 a4) := fun _ _ _ _ _ => ⟨rfl, fun h => nomatch h⟩
theorem rem : ∀ a0 a1 a2 a3 a4, Statement (.rem a0 a1 a2 a3 a4) := fun _ _ _ _ _ => ⟨rfl, fun h => nomatch h⟩
theorem remu : ∀ a0 a1 a2 a3 a4, Statement (.remu a0 a1 a2 a3 a4) := fun _ _ _ _ _ => ⟨rfl, fun h => nomatch h⟩
theorem and : ∀ a0 a1 a2 a3 a4, Statement (.and a0 a1 a2 a3 a4) := fun _ _ _ _ _ => ⟨rfl, fun h => nomatch h⟩
theorem andi : ∀ a0 a1 a2 a3 a4, Statement (.andi a0 a1 a2 a3 a4) := fun _ _ _ _ _ => ⟨rfl, fun h => nomatch h⟩
theorem or : ∀ a0 a1 a2 a3 a4, Statement (.or a0 a1 a2 a3 a4) := fun _ _ _ _ _ => ⟨rfl, fun h => nomatch h⟩
theorem ori : ∀ a0 a1 a2 a3 a4, Statement (.ori a0 a1 a2 a3 a4) := fun _ _ _ _ _ => ⟨rfl, fun h => nomatch h⟩
theorem xor : ∀ a0 a1 a2 a3 a4, Statement (.xor a0 a1 a2 a3 a4) := fun _ _ _ _ _ => ⟨rfl, fun h => nomatch h⟩
theorem xori : ∀ a0 a1 a2 a3 a4, Statement (.xori a0 a1 a2 a3 a4) := fun _ _ _ _ _ => ⟨rfl, fun h => nomatch h⟩
theorem shl : ∀ a0 a1 a2 a3 a4, Statement (.shl a0 a1 a2 a3 a4) := fun _ _ _ _ _ => ⟨rfl, fun h => nomatch h⟩
theorem shli : ∀ a0 a1 a2 a3 a4, Statement (.shli a0 a1 a2 a3 a4) := fun _ _ _ _ _ => ⟨rfl, fun h => nomatch h⟩
theorem shr : ∀ a0 a1 a2 a3 a4, Statement (.shr a0 a1 a2 a3 a4) := fun _ _ _ _ _ => ⟨rfl, fun h => nomatch h⟩
theorem shri : ∀ a0 a1 a2 a3 a4, Statement (.shri a0 a1 a2 a3 a4) := fun _ _ _ _ _ => ⟨rfl, fun h => nomatch h⟩
theorem sar : ∀ a0 a1 a2 a3 a4, Statement (.sar a0 a1 a2 a3 a4) := fun _ _ _ _ _ => ⟨rfl, fun h => nomatch h⟩
theorem sari : ∀ a0 a1 a2 a3 a4, Statement (.sari a0 a1 a2 a3 a4) := fun _ _ _ _ _ => ⟨rfl, fun h => nomatch h⟩
theorem clz : ∀ a0 a1 a2 a3, Statement (.clz a0 a1 a2 a3) := fun _ _ _ _ => ⟨rfl, fun h => nomatch h⟩
theorem ctz : ∀ a0 a1 a2 a3, Statement (.ctz a0 a1 a2 a3) := fun _ _ _ _ => ⟨rfl, fun h => nomatch h⟩
theorem popc : ∀ a0 a1 a2 a3, Statement (.popc a0 a1 a2 a3) := fun _ _ _ _ => ⟨rfl, fun h => nomatch h⟩
theorem min : ∀ a0 a1 a2 a3 a4, Statement (.min a0 a1 a2 a3 a4) := fun _ _ _ _ _ => ⟨rfl, fun h => nomatch h⟩
theorem max : ∀ a0 a1 a2 a3 a4, Statement (.max a0 a1 a2 a3 a4) := fun _ _ _ _ _ => ⟨rfl, fun h => nomatch h⟩
theorem minu : ∀ a0 a1 a2 a3 a4, Statement (.minu a0 a1 a2 a3 a4) := fun _ _ _ _ _ => ⟨rfl, fun h => nomatch h⟩
theorem maxu : ∀ a0 a1 a2 a3 a4, Statement (.maxu a0 a1 a2 a3 a4) := fun _ _ _ _ _ => ⟨rfl, fun h => nomatch h⟩
theorem sel : ∀ a0 a1 a2 a3 a4, Statement (.sel a0 a1 a2 a3 a4) := fun _ _ _ _ _ => ⟨rfl, fun h => nomatch h⟩
theorem cmp : ∀ a0 a1 a2 a3 a4 a5, Statement (.cmp a0 a1 a2 a3 a4 a5) := fun _ _ _ _ _ _ => ⟨rfl, fun h => nomatch h⟩
theorem cmpi : ∀ a0 a1 a2 a3 a4 a5, Statement (.cmpi a0 a1 a2 a3 a4 a5) := fun _ _ _ _ _ _ => ⟨rfl, fun h => nomatch h⟩
theorem movw : ∀ a0 a1 a2, Statement (.movw a0 a1 a2) := fun _ _ _ => ⟨rfl, fun h => nomatch h⟩
theorem movhi : ∀ a0 a1 a2, Statement (.movhi a0 a1 a2) := fun _ _ _ => ⟨rfl, fun h => nomatch h⟩
theorem extb : ∀ a0 a1 a2 a3 a4 a5, Statement (.extb a0 a1 a2 a3 a4 a5) := fun _ _ _ _ _ _ => ⟨rfl, fun h => nomatch h⟩
theorem insb : ∀ a0 a1 a2 a3 a4, Statement (.insb a0 a1 a2 a3 a4) := fun _ _ _ _ _ => ⟨rfl, fun h => nomatch h⟩
theorem fadd : ∀ a0 a1 a2 a3 a4 a5, Statement (.fadd a0 a1 a2 a3 a4 a5) := fun _ _ _ _ _ _ => ⟨rfl, fun h => nomatch h⟩
theorem fsub : ∀ a0 a1 a2 a3 a4 a5, Statement (.fsub a0 a1 a2 a3 a4 a5) := fun _ _ _ _ _ _ => ⟨rfl, fun h => nomatch h⟩
theorem fmul : ∀ a0 a1 a2 a3 a4 a5, Statement (.fmul a0 a1 a2 a3 a4 a5) := fun _ _ _ _ _ _ => ⟨rfl, fun h => nomatch h⟩
theorem ffma : ∀ a0 a1 a2 a3 a4 a5 a6, Statement (.ffma a0 a1 a2 a3 a4 a5 a6) := fun _ _ _ _ _ _ _ => ⟨rfl, fun h => nomatch h⟩
theorem fdiv : ∀ a0 a1 a2 a3 a4 a5, Statement (.fdiv a0 a1 a2 a3 a4 a5) := fun _ _ _ _ _ _ => ⟨rfl, fun h => nomatch h⟩
theorem fsqrt : ∀ a0 a1 a2 a3 a4, Statement (.fsqrt a0 a1 a2 a3 a4) := fun _ _ _ _ _ => ⟨rfl, fun h => nomatch h⟩
theorem fcvt : ∀ a0 a1 a2 a3 a4 a5 a6, Statement (.fcvt a0 a1 a2 a3 a4 a5 a6) := fun _ _ _ _ _ _ _ => ⟨rfl, fun h => nomatch h⟩
theorem fcmp : ∀ a0 a1 a2 a3 a4 a5, Statement (.fcmp a0 a1 a2 a3 a4 a5) := fun _ _ _ _ _ _ => ⟨rfl, fun h => nomatch h⟩
theorem plog : ∀ a0 a1 a2 a3 a4, Statement (.plog a0 a1 a2 a3 a4) := fun _ _ _ _ _ => ⟨rfl, fun h => nomatch h⟩
theorem pmov : ∀ a0 a1, Statement (.pmov a0 a1) := fun _ _ => ⟨rfl, fun h => nomatch h⟩
theorem lds : ∀ a0 a1 a2 a3 a4 a5 a6, Statement (.lds a0 a1 a2 a3 a4 a5 a6) := fun _ _ _ _ _ _ _ => ⟨rfl, fun h => nomatch h⟩
theorem sts : ∀ a0 a1 a2 a3 a4 a5, Statement (.sts a0 a1 a2 a3 a4 a5) := fun _ _ _ _ _ _ => ⟨rfl, fun h => nomatch h⟩
theorem ldv : ∀ a0 a1 a2 a3 a4, Statement (.ldv a0 a1 a2 a3 a4) := fun _ _ _ _ _ => ⟨rfl, fun h => nomatch h⟩
theorem stv : ∀ a0 a1 a2 a3 a4, Statement (.stv a0 a1 a2 a3 a4) := fun _ _ _ _ _ => ⟨rfl, fun h => nomatch h⟩
theorem ldvs : ∀ a0 a1 a2 a3 a4 a5, Statement (.ldvs a0 a1 a2 a3 a4 a5) := fun _ _ _ _ _ _ => ⟨rfl, fun h => nomatch h⟩
theorem gath : ∀ a0 a1 a2 a3 a4, Statement (.gath a0 a1 a2 a3 a4) := fun _ _ _ _ _ => ⟨rfl, fun h => nomatch h⟩
theorem scat : ∀ a0 a1 a2 a3 a4, Statement (.scat a0 a1 a2 a3 a4) := fun _ _ _ _ _ => ⟨rfl, fun h => nomatch h⟩
theorem winset : ∀ a0 a1 a2 a3, Statement (.winset a0 a1 a2 a3) := fun _ _ _ _ => ⟨rfl, fun h => nomatch h⟩
theorem ringset : ∀ a0 a1 a2 a3 a4, Statement (.ringset a0 a1 a2 a3 a4) := fun _ _ _ _ _ => ⟨rfl, fun h => nomatch h⟩
theorem radv : ∀ a0 a1 a2 a3, Statement (.radv a0 a1 a2 a3) := fun _ _ _ _ => ⟨rfl, fun h => nomatch h⟩
theorem rrel : ∀ a0 a1 a2 a3, Statement (.rrel a0 a1 a2 a3) := fun _ _ _ _ => ⟨rfl, fun h => nomatch h⟩
theorem xlt : ∀ a0 a1 a2, Statement (.xlt a0 a1 a2) := fun _ _ _ => ⟨rfl, fun h => nomatch h⟩
theorem hrel : ∀ a0 a1, Statement (.hrel a0 a1) := fun _ _ => ⟨rfl, fun h => nomatch h⟩
theorem hinfo : ∀ a0 a1 a2 a3, Statement (.hinfo a0 a1 a2 a3) := fun _ _ _ _ => ⟨rfl, fun h => nomatch h⟩
theorem mld : ∀ a0 a1 a2 a3 a4 a5 a6, Statement (.mld a0 a1 a2 a3 a4 a5 a6) := fun _ _ _ _ _ _ _ => ⟨rfl, fun h => nomatch h⟩
theorem mldv : ∀ a0 a1 a2 a3 a4, Statement (.mldv a0 a1 a2 a3 a4) := fun _ _ _ _ _ => ⟨rfl, fun h => nomatch h⟩
theorem mgath : ∀ a0 a1 a2 a3 a4 a5, Statement (.mgath a0 a1 a2 a3 a4 a5) := fun _ _ _ _ _ _ => ⟨rfl, fun h => nomatch h⟩
theorem mst : ∀ a0 a1 a2 a3 a4 a5, Statement (.mst a0 a1 a2 a3 a4 a5) := fun _ _ _ _ _ _ => ⟨rfl, fun h => nomatch h⟩
theorem mstv : ∀ a0 a1 a2 a3 a4, Statement (.mstv a0 a1 a2 a3 a4) := fun _ _ _ _ _ => ⟨rfl, fun h => nomatch h⟩
theorem amo : ∀ a0 a1 a2 a3 a4 a5 a6 a7 a8, Statement (.amo a0 a1 a2 a3 a4 a5 a6 a7 a8) := fun _ _ _ _ _ _ _ _ _ => ⟨rfl, fun h => nomatch h⟩
theorem amocas : ∀ a0 a1 a2 a3 a4 a5 a6 a7 a8, Statement (.amocas a0 a1 a2 a3 a4 a5 a6 a7 a8) := fun _ _ _ _ _ _ _ _ _ => ⟨rfl, fun h => nomatch h⟩
theorem sqld : ∀ a0 a1 a2 a3 a4, Statement (.sqld a0 a1 a2 a3 a4) := fun _ _ _ _ _ => ⟨rfl, fun h => nomatch h⟩
theorem sqpush : ∀ a0 a1 a2 a3, Statement (.sqpush a0 a1 a2 a3) := fun _ _ _ _ => ⟨rfl, fun h => nomatch h⟩
theorem disc : ∀ a0 a1 a2 a3, Statement (.disc a0 a1 a2 a3) := fun _ _ _ _ => ⟨rfl, fun h => nomatch h⟩
theorem vadd : ∀ a0 a1 a2 a3 a4 a5 a6 a7, Statement (.vadd a0 a1 a2 a3 a4 a5 a6 a7) := fun _ _ _ _ _ _ _ _ => ⟨rfl, fun h => nomatch h⟩
theorem vsub : ∀ a0 a1 a2 a3 a4 a5 a6 a7, Statement (.vsub a0 a1 a2 a3 a4 a5 a6 a7) := fun _ _ _ _ _ _ _ _ => ⟨rfl, fun h => nomatch h⟩
theorem vmul : ∀ a0 a1 a2 a3 a4 a5 a6 a7, Statement (.vmul a0 a1 a2 a3 a4 a5 a6 a7) := fun _ _ _ _ _ _ _ _ => ⟨rfl, fun h => nomatch h⟩
theorem vfma : ∀ a0 a1 a2 a3 a4 a5 a6 a7 a8, Statement (.vfma a0 a1 a2 a3 a4 a5 a6 a7 a8) := fun _ _ _ _ _ _ _ _ _ => ⟨rfl, fun h => nomatch h⟩
theorem vfms : ∀ a0 a1 a2 a3 a4 a5 a6 a7 a8, Statement (.vfms a0 a1 a2 a3 a4 a5 a6 a7 a8) := fun _ _ _ _ _ _ _ _ _ => ⟨rfl, fun h => nomatch h⟩
theorem vmin : ∀ a0 a1 a2 a3 a4 a5, Statement (.vmin a0 a1 a2 a3 a4 a5) := fun _ _ _ _ _ _ => ⟨rfl, fun h => nomatch h⟩
theorem vmax : ∀ a0 a1 a2 a3 a4 a5, Statement (.vmax a0 a1 a2 a3 a4 a5) := fun _ _ _ _ _ _ => ⟨rfl, fun h => nomatch h⟩
theorem vabs : ∀ a0 a1 a2 a3 a4, Statement (.vabs a0 a1 a2 a3 a4) := fun _ _ _ _ _ => ⟨rfl, fun h => nomatch h⟩
theorem vneg : ∀ a0 a1 a2 a3 a4, Statement (.vneg a0 a1 a2 a3 a4) := fun _ _ _ _ _ => ⟨rfl, fun h => nomatch h⟩
theorem vand : ∀ a0 a1 a2 a3 a4, Statement (.vand a0 a1 a2 a3 a4) := fun _ _ _ _ _ => ⟨rfl, fun h => nomatch h⟩
theorem vor : ∀ a0 a1 a2 a3 a4, Statement (.vor a0 a1 a2 a3 a4) := fun _ _ _ _ _ => ⟨rfl, fun h => nomatch h⟩
theorem vxor : ∀ a0 a1 a2 a3 a4, Statement (.vxor a0 a1 a2 a3 a4) := fun _ _ _ _ _ => ⟨rfl, fun h => nomatch h⟩
theorem vshl : ∀ a0 a1 a2 a3 a4, Statement (.vshl a0 a1 a2 a3 a4) := fun _ _ _ _ _ => ⟨rfl, fun h => nomatch h⟩
theorem vshr : ∀ a0 a1 a2 a3 a4, Statement (.vshr a0 a1 a2 a3 a4) := fun _ _ _ _ _ => ⟨rfl, fun h => nomatch h⟩
theorem vsar : ∀ a0 a1 a2 a3 a4, Statement (.vsar a0 a1 a2 a3 a4) := fun _ _ _ _ _ => ⟨rfl, fun h => nomatch h⟩
theorem vcmp : ∀ a0 a1 a2 a3 a4 a5, Statement (.vcmp a0 a1 a2 a3 a4 a5) := fun _ _ _ _ _ _ => ⟨rfl, fun h => nomatch h⟩
theorem vsel : ∀ a0 a1 a2 a3 a4 a5, Statement (.vsel a0 a1 a2 a3 a4 a5) := fun _ _ _ _ _ _ => ⟨rfl, fun h => nomatch h⟩
theorem vcvt : ∀ a0 a1 a2 a3 a4 a5 a6 a7 a8 a9, Statement (.vcvt a0 a1 a2 a3 a4 a5 a6 a7 a8 a9) := fun _ _ _ _ _ _ _ _ _ _ => ⟨rfl, fun h => nomatch h⟩
theorem vquant : ∀ a0 a1 a2 a3 a4 a5 a6 a7, Statement (.vquant a0 a1 a2 a3 a4 a5 a6 a7) := fun _ _ _ _ _ _ _ _ => ⟨rfl, fun h => nomatch h⟩
theorem vdeq : ∀ a0 a1 a2 a3 a4 a5 a6 a7, Statement (.vdeq a0 a1 a2 a3 a4 a5 a6 a7) := fun _ _ _ _ _ _ _ _ => ⟨rfl, fun h => nomatch h⟩
theorem vrcp : ∀ a0 a1 a2 a3 a4 a5, Statement (.vrcp a0 a1 a2 a3 a4 a5) := fun _ _ _ _ _ _ => ⟨rfl, fun h => nomatch h⟩
theorem vrsq : ∀ a0 a1 a2 a3 a4 a5, Statement (.vrsq a0 a1 a2 a3 a4 a5) := fun _ _ _ _ _ _ => ⟨rfl, fun h => nomatch h⟩
theorem vexp2 : ∀ a0 a1 a2 a3 a4 a5, Statement (.vexp2 a0 a1 a2 a3 a4 a5) := fun _ _ _ _ _ _ => ⟨rfl, fun h => nomatch h⟩
theorem vlog2 : ∀ a0 a1 a2 a3 a4 a5, Statement (.vlog2 a0 a1 a2 a3 a4 a5) := fun _ _ _ _ _ _ => ⟨rfl, fun h => nomatch h⟩
theorem vrsum : ∀ a0 a1 a2 a3 a4 a5 a6, Statement (.vrsum a0 a1 a2 a3 a4 a5 a6) := fun _ _ _ _ _ _ _ => ⟨rfl, fun h => nomatch h⟩
theorem vrmax : ∀ a0 a1 a2 a3 a4, Statement (.vrmax a0 a1 a2 a3 a4) := fun _ _ _ _ _ => ⟨rfl, fun h => nomatch h⟩
theorem vrmin : ∀ a0 a1 a2 a3 a4, Statement (.vrmin a0 a1 a2 a3 a4) := fun _ _ _ _ _ => ⟨rfl, fun h => nomatch h⟩
theorem vscan : ∀ a0 a1 a2 a3 a4 a5 a6 a7, Statement (.vscan a0 a1 a2 a3 a4 a5 a6 a7) := fun _ _ _ _ _ _ _ _ => ⟨rfl, fun h => nomatch h⟩
theorem vperm : ∀ a0 a1 a2 a3 a4, Statement (.vperm a0 a1 a2 a3 a4) := fun _ _ _ _ _ => ⟨rfl, fun h => nomatch h⟩
theorem vsplat : ∀ a0 a1 a2 a3, Statement (.vsplat a0 a1 a2 a3) := fun _ _ _ _ => ⟨rfl, fun h => nomatch h⟩
theorem vins : ∀ a0 a1 a2 a3 a4, Statement (.vins a0 a1 a2 a3 a4) := fun _ _ _ _ _ => ⟨rfl, fun h => nomatch h⟩
theorem vext : ∀ a0 a1 a2 a3 a4 a5, Statement (.vext a0 a1 a2 a3 a4 a5) := fun _ _ _ _ _ _ => ⟨rfl, fun h => nomatch h⟩
theorem viota : ∀ a0 a1 a2 a3 a4, Statement (.viota a0 a1 a2 a3 a4) := fun _ _ _ _ _ => ⟨rfl, fun h => nomatch h⟩
theorem vpart : ∀ a0 a1 a2 a3 a4 a5 a6 a7, Statement (.vpart a0 a1 a2 a3 a4 a5 a6 a7) := fun _ _ _ _ _ _ _ _ => ⟨rfl, fun h => nomatch h⟩
theorem vcomp : ∀ a0 a1 a2 a3 a4 a5, Statement (.vcomp a0 a1 a2 a3 a4 a5) := fun _ _ _ _ _ _ => ⟨rfl, fun h => nomatch h⟩
theorem vexpd : ∀ a0 a1 a2 a3 a4, Statement (.vexpd a0 a1 a2 a3 a4) := fun _ _ _ _ _ => ⟨rfl, fun h => nomatch h⟩
theorem vpcnt : ∀ a0 a1 a2 a3, Statement (.vpcnt a0 a1 a2 a3) := fun _ _ _ _ => ⟨rfl, fun h => nomatch h⟩
theorem vmovp : ∀ a0 a1 a2, Statement (.vmovp a0 a1 a2) := fun _ _ _ => ⟨rfl, fun h => nomatch h⟩
theorem vmulh : ∀ a0 a1 a2 a3 a4 a5, Statement (.vmulh a0 a1 a2 a3 a4 a5) := fun _ _ _ _ _ _ => ⟨rfl, fun h => nomatch h⟩
theorem vclamp : ∀ a0 a1 a2 a3 a4 a5 a6, Statement (.vclamp a0 a1 a2 a3 a4 a5 a6) := fun _ _ _ _ _ _ _ => ⟨rfl, fun h => nomatch h⟩
theorem mma : ∀ a0 a1 a2 a3 a4 a5 a6 a7 a8, Statement (.mma a0 a1 a2 a3 a4 a5 a6 a7 a8) := fun _ _ _ _ _ _ _ _ _ => ⟨rfl, fun h => nomatch h⟩
theorem mmas : ∀ a0 a1 a2 a3 a4 a5 a6 a7 a8 a9, Statement (.mmas a0 a1 a2 a3 a4 a5 a6 a7 a8 a9) := fun _ _ _ _ _ _ _ _ _ _ => ⟨rfl, fun h => nomatch h⟩
theorem mzero : ∀ a0 a1, Statement (.mzero a0 a1) := fun _ _ => ⟨rfl, fun h => nomatch h⟩
theorem mldp : ∀ a0 a1 a2 a3 a4 a5 a6, Statement (.mldp a0 a1 a2 a3 a4 a5 a6) := fun _ _ _ _ _ _ _ => ⟨rfl, fun h => nomatch h⟩
theorem mstp : ∀ a0 a1 a2 a3 a4 a5 a6 a7 a8, Statement (.mstp a0 a1 a2 a3 a4 a5 a6 a7 a8) := fun _ _ _ _ _ _ _ _ _ => ⟨rfl, fun h => nomatch h⟩
theorem mrow : ∀ a0 a1 a2 a3, Statement (.mrow a0 a1 a2 a3) := fun _ _ _ _ => ⟨rfl, fun h => nomatch h⟩
theorem mrput : ∀ a0 a1 a2 a3, Statement (.mrput a0 a1 a2 a3) := fun _ _ _ _ => ⟨rfl, fun h => nomatch h⟩
theorem mtrn : ∀ a0 a1 a2, Statement (.mtrn a0 a1 a2) := fun _ _ _ => ⟨rfl, fun h => nomatch h⟩
theorem mops : ∀ a0 a1, Statement (.mops a0 a1) := fun _ _ => ⟨rfl, fun h => nomatch h⟩
theorem mwin : ∀ a0 a1, Statement (.mwin a0 a1) := fun _ _ => ⟨rfl, fun h => nomatch h⟩
theorem mflg : ∀ a0 a1, Statement (.mflg a0 a1) := fun _ _ => ⟨rfl, fun h => nomatch h⟩
theorem mfclr : ∀ a0 a1, Statement (.mfclr a0 a1) := fun _ _ => ⟨rfl, fun h => nomatch h⟩
theorem mscl : ∀ a0 a1 a2 a3 a4, Statement (.mscl a0 a1 a2 a3 a4) := fun _ _ _ _ _ => ⟨rfl, fun h => nomatch h⟩
theorem mexp : ∀ a0 a1 a2 a3 a4, Statement (.mexp a0 a1 a2 a3 a4) := fun _ _ _ _ _ => ⟨rfl, fun h => nomatch h⟩
theorem mmax : ∀ a0 a1 a2 a3, Statement (.mmax a0 a1 a2 a3) := fun _ _ _ _ => ⟨rfl, fun h => nomatch h⟩
theorem seq : ∀ a0 a1 a2 a3, Statement (.seq a0 a1 a2 a3) := fun _ _ _ _ => ⟨rfl, fun h => nomatch h⟩
theorem seqgo : ∀ a0 a1 a2, Statement (.seqgo a0 a1 a2) := fun _ _ _ => ⟨rfl, fun h => nomatch h⟩
theorem cpy : ∀ a0 a1 a2 a3, Statement (.cpy a0 a1 a2 a3) := fun _ _ _ _ => ⟨rfl, fun h => nomatch h⟩
theorem cpyr : ∀ a0 a1 a2 a3, Statement (.cpyr a0 a1 a2 a3) := fun _ _ _ _ => ⟨rfl, fun h => nomatch h⟩
theorem mcast : ∀ a0 a1 a2 a3, Statement (.mcast a0 a1 a2 a3) := fun _ _ _ _ => ⟨rfl, fun h => nomatch h⟩
theorem cntadd : ∀ a0 a1 a2 a3, Statement (.cntadd a0 a1 a2 a3) := fun _ _ _ _ => ⟨rfl, fun h => nomatch h⟩
theorem cntwait : ∀ a0 a1 a2, Statement (.cntwait a0 a1 a2) := fun _ _ _ => ⟨rfl, fun h => nomatch h⟩
theorem cntrd : ∀ a0 a1 a2 a3 a4, Statement (.cntrd a0 a1 a2 a3 a4) := fun _ _ _ _ _ => ⟨rfl, fun h => nomatch h⟩
theorem qfence : ∀ a0 a1, Statement (.qfence a0 a1) := fun _ _ => ⟨rfl, fun h => nomatch h⟩
theorem drain : ∀ a0, Statement (.drain a0) := fun _ => ⟨rfl, fun h => nomatch h⟩
theorem fence : ∀ a0 a1, Statement (.fence a0 a1) := fun _ _ => ⟨rfl, fun h => nomatch h⟩
theorem bar : ∀ a0 a1 a2 a3, Statement (.bar a0 a1 a2 a3) := fun _ _ _ _ => ⟨rfl, fun h => nomatch h⟩
theorem scene : ∀ a0, Statement (.scene a0) := fun _ => ⟨rfl, fun h => nomatch h⟩
theorem netred : ∀ a0 a1 a2 a3 a4 a5 a6 a7 a8, Statement (.netred a0 a1 a2 a3 a4 a5 a6 a7 a8) := fun _ _ _ _ _ _ _ _ _ => ⟨rfl, fun h => nomatch h⟩
theorem netbc : ∀ a0 a1 a2 a3 a4 a5 a6, Statement (.netbc a0 a1 a2 a3 a4 a5 a6) := fun _ _ _ _ _ _ _ => ⟨rfl, fun h => nomatch h⟩
theorem redopen : ∀ a0 a1 a2 a3 a4 a5, Statement (.redopen a0 a1 a2 a3 a4 a5) := fun _ _ _ _ _ _ => ⟨rfl, fun h => nomatch h⟩
theorem redclose : ∀ a0 a1 a2, Statement (.redclose a0 a1 a2) := fun _ _ _ => ⟨rfl, fun h => nomatch h⟩
theorem flkadd : ∀ a0 a1 a2 a3, Statement (.flkadd a0 a1 a2 a3) := fun _ _ _ _ => ⟨rfl, fun h => nomatch h⟩
theorem flkdel : ∀ a0 a1 a2, Statement (.flkdel a0 a1 a2) := fun _ _ _ => ⟨rfl, fun h => nomatch h⟩
theorem pgcast : ∀ a0 a1 a2 a3, Statement (.pgcast a0 a1 a2 a3) := fun _ _ _ _ => ⟨rfl, fun h => nomatch h⟩
theorem merge : ∀ a0 a1 a2 a3 a4, Statement (.merge a0 a1 a2 a3 a4) := fun _ _ _ _ _ => ⟨rfl, fun h => nomatch h⟩
theorem mrgdrnOpen : ∀ a0 a1 a2, Statement (.mrgdrnOpen a0 a1 a2) := fun _ _ _ => ⟨rfl, fun h => nomatch h⟩
theorem mrgdrnDrain : ∀ a0 a1 a2, Statement (.mrgdrnDrain a0 a1 a2) := fun _ _ _ => ⟨rfl, fun h => nomatch h⟩
theorem mrgdrnFin : ∀ a0 a1 a2, Statement (.mrgdrnFin a0 a1 a2) := fun _ _ _ => ⟨rfl, fun h => nomatch h⟩
theorem rsv : ∀ a0 a1 a2 a3, Statement (.rsv a0 a1 a2 a3) := fun _ _ _ _ => ⟨rfl, fun h => nomatch h⟩
theorem unrsv : ∀ a0 a1 a2 a3, Statement (.unrsv a0 a1 a2 a3) := fun _ _ _ _ => ⟨rfl, fun h => nomatch h⟩
theorem lksendData : ∀ a0 a1 a2 a3 a4 a5 a6 a7 a8, Statement (.lksendData a0 a1 a2 a3 a4 a5 a6 a7 a8) := fun _ _ _ _ _ _ _ _ _ => ⟨rfl, fun h => nomatch h⟩
theorem lksendRst : ∀ a0 a1 a2 a3, Statement (.lksendRst a0 a1 a2 a3) := fun _ _ _ _ => ⟨rfl, fun h => nomatch h⟩
theorem lkrecvPost : ∀ a0 a1 a2 a3 a4 a5 a6 a7 a8, Statement (.lkrecvPost a0 a1 a2 a3 a4 a5 a6 a7 a8) := fun _ _ _ _ _ _ _ _ _ => ⟨rfl, fun h => nomatch h⟩
theorem lkrecvRst : ∀ a0 a1 a2 a3, Statement (.lkrecvRst a0 a1 a2 a3) := fun _ _ _ _ => ⟨rfl, fun h => nomatch h⟩
theorem lkrecvFrame : ∀ a0 a1 a2, Statement (.lkrecvFrame a0 a1 a2) := fun _ _ _ => ⟨rfl, fun h => nomatch h⟩
theorem condv : ∀ a0 a1 a2, Statement (.condv a0 a1 a2) := fun _ _ _ => ⟨rfl, fun h => nomatch h⟩
theorem cpywait : ∀ a0 a1, Statement (.cpywait a0 a1) := fun _ _ => ⟨rfl, fun h => nomatch h⟩
theorem bundleFetch : ∀ a0, Statement (.bundleFetch a0) := fun _ => ⟨rfl, fun _ => rfl⟩
theorem closingPoint : ∀ a0, Statement (.closingPoint a0) := fun _ => ⟨rfl, fun _ => rfl⟩
theorem prompterCycle : ∀ a0, Statement (.prompterCycle a0) := fun _ => ⟨rfl, fun _ => rfl⟩
theorem condwApply : ∀ a0 a1, Statement (.condwApply a0 a1) := fun _ _ => ⟨rfl, fun _ => rfl⟩
theorem tokenArrival : ∀ a0, Statement (.tokenArrival a0) := fun _ => ⟨rfl, fun _ => rfl⟩
theorem deliver : ∀ a0, Statement (.deliver a0) := fun _ => ⟨rfl, fun _ => rfl⟩
theorem recordDelivery : ∀ a0 a1, Statement (.recordDelivery a0 a1) := fun _ _ => ⟨rfl, fun _ => rfl⟩
theorem systemFault : ∀ a0, Statement (.systemFault a0) := fun _ => ⟨rfl, fun _ => rfl⟩
theorem pointOverrun : ∀ a0, Statement (.pointOverrun a0) := fun _ => ⟨rfl, fun _ => rfl⟩
theorem dataError : ∀ a0, Statement (.dataError a0) := fun _ => ⟨rfl, fun _ => rfl⟩
theorem walkLands : ∀ a0 a1 a2, Statement (.walkLands a0 a1 a2) := fun _ _ _ => ⟨rfl, fun _ => rfl⟩
theorem loadLands : ∀ a0 a1, Statement (.loadLands a0 a1) := fun _ _ => ⟨rfl, fun _ => rfl⟩
theorem scaleLoadLands : ∀ a0 a1, Statement (.scaleLoadLands a0 a1) := fun _ _ => ⟨rfl, fun _ => rfl⟩
theorem remoteAccessPerformed : ∀ a0 a1 a2, Statement (.remoteAccessPerformed a0 a1 a2) := fun _ _ _ => ⟨rfl, fun _ => rfl⟩
theorem allocationDecision : ∀ a0 a1, Statement (.allocationDecision a0 a1) := fun _ _ => ⟨rfl, fun _ => rfl⟩
theorem sequencerEmit : ∀ a0 a1, Statement (.sequencerEmit a0 a1) := fun _ _ => ⟨rfl, fun _ => rfl⟩
theorem copyPerform : ∀ a0 a1, Statement (.copyPerform a0 a1) := fun _ _ => ⟨rfl, fun _ => rfl⟩
theorem dir2Inject : ∀ a0 a1, Statement (.dir2Inject a0 a1) := fun _ _ => ⟨rfl, fun _ => rfl⟩
theorem copyCompletion : ∀ a0 a1, Statement (.copyCompletion a0 a1) := fun _ _ => ⟨rfl, fun _ => rfl⟩
theorem matrixEntryStart : ∀ a0, Statement (.matrixEntryStart a0) := fun _ => ⟨rfl, fun _ => rfl⟩
theorem matrixEntryWrite : ∀ a0, Statement (.matrixEntryWrite a0) := fun _ => ⟨rfl, fun _ => rfl⟩
theorem e5EntrySend : ∀ a0, Statement (.e5EntrySend a0) := fun _ => ⟨rfl, fun _ => rfl⟩
theorem barArrival : ∀ a0 a1, Statement (.barArrival a0 a1) := fun _ _ => ⟨rfl, fun _ => rfl⟩
theorem barCompletion : ∀ a0 a1, Statement (.barCompletion a0 a1) := fun _ _ => ⟨rfl, fun _ => rfl⟩
theorem netredContribution : ∀ a0 a1, Statement (.netredContribution a0 a1) := fun _ _ => ⟨rfl, fun _ => rfl⟩
theorem netredResult : ∀ a0 a1, Statement (.netredResult a0 a1) := fun _ _ => ⟨rfl, fun _ => rfl⟩
theorem netbcResult : ∀ a0 a1, Statement (.netbcResult a0 a1) := fun _ _ => ⟨rfl, fun _ => rfl⟩
theorem windowOpen : ∀ a0 a1, Statement (.windowOpen a0 a1) := fun _ _ => ⟨rfl, fun _ => rfl⟩
theorem windowClose : ∀ a0 a1, Statement (.windowClose a0 a1) := fun _ _ => ⟨rfl, fun _ => rfl⟩
theorem sceneSwap : ∀ a0, Statement (.sceneSwap a0) := fun _ => ⟨rfl, fun _ => rfl⟩
theorem flockEvent : ∀ a0 a1, Statement (.flockEvent a0 a1) := fun _ _ => ⟨rfl, fun _ => rfl⟩
theorem passBegin : ∀ a0 a1, Statement (.passBegin a0 a1) := fun _ _ => ⟨rfl, fun _ => rfl⟩
theorem pageLanding : ∀ a0 a1, Statement (.pageLanding a0 a1) := fun _ _ => ⟨rfl, fun _ => rfl⟩
theorem passCompletion : ∀ a0 a1, Statement (.passCompletion a0 a1) := fun _ _ => ⟨rfl, fun _ => rfl⟩
theorem counterWait : ∀ a0 a1, Statement (.counterWait a0 a1) := fun _ _ => ⟨rfl, fun _ => rfl⟩
theorem translationInvalidation : ∀ a0 a1 a2, Statement (.translationInvalidation a0 a1 a2) := fun _ _ _ => ⟨rfl, fun _ => rfl⟩
theorem migration : ∀ a0 a1 a2, Statement (.migration a0 a1 a2) := fun _ _ _ => ⟨rfl, fun _ => rfl⟩
theorem fnProxyReply : ∀ a0 a1 a2, Statement (.fnProxyReply a0 a1 a2) := fun _ _ _ => ⟨rfl, fun _ => rfl⟩
theorem functionReset : ∀ a0, Statement (.functionReset a0) := fun _ => ⟨rfl, fun _ => rfl⟩
theorem functionLevelReset : ∀ a0, Statement (.functionLevelReset a0) := fun _ => ⟨rfl, fun _ => rfl⟩
theorem hotReset : Statement (.hotReset) := ⟨rfl, fun _ => rfl⟩
theorem devReclaim : ∀ a0, Statement (.devReclaim a0) := fun _ => ⟨rfl, fun _ => rfl⟩
theorem slotBind : ∀ a0 a1, Statement (.slotBind a0 a1) := fun _ _ => ⟨rfl, fun _ => rfl⟩
theorem slotUnmap : ∀ a0, Statement (.slotUnmap a0) := fun _ => ⟨rfl, fun _ => rfl⟩
theorem slotCtlUpdate : ∀ a0 a1, Statement (.slotCtlUpdate a0 a1) := fun _ _ => ⟨rfl, fun _ => rfl⟩
theorem devClsMin : ∀ a0, Statement (.devClsMin a0) := fun _ => ⟨rfl, fun _ => rfl⟩
theorem devSlcMode : ∀ a0, Statement (.devSlcMode a0) := fun _ => ⟨rfl, fun _ => rfl⟩
theorem domainChange : ∀ a0, Statement (.domainChange a0) := fun _ => ⟨rfl, fun _ => rfl⟩
theorem devLock : ∀ a0, Statement (.devLock a0) := fun _ => ⟨rfl, fun _ => rfl⟩
theorem ownerCreate : ∀ a0, Statement (.ownerCreate a0) := fun _ => ⟨rfl, fun _ => rfl⟩
theorem ownerRetire : ∀ a0, Statement (.ownerRetire a0) := fun _ => ⟨rfl, fun _ => rfl⟩
theorem teardown : ∀ a0, Statement (.teardown a0) := fun _ => ⟨rfl, fun _ => rfl⟩
theorem devPwr : ∀ a0, Statement (.devPwr a0) := fun _ => ⟨rfl, fun _ => rfl⟩
theorem modeChangeDone : Statement (.modeChangeDone) := ⟨rfl, fun _ => rfl⟩
theorem portBind : ∀ a0 a1, Statement (.portBind a0 a1) := fun _ _ => ⟨rfl, fun _ => rfl⟩
theorem portUnbind : ∀ a0, Statement (.portUnbind a0) := fun _ => ⟨rfl, fun _ => rfl⟩
theorem registerWrite : ∀ a0 a1 a2, Statement (.registerWrite a0 a1 a2) := fun _ _ _ => ⟨rfl, fun _ => rfl⟩
theorem snpData : ∀ a0, Statement (.snpData a0) := fun _ => ⟨rfl, fun _ => rfl⟩
theorem snpInv : ∀ a0, Statement (.snpInv a0) := fun _ => ⟨rfl, fun _ => rfl⟩
theorem snpCur : ∀ a0, Statement (.snpCur a0) := fun _ => ⟨rfl, fun _ => rfl⟩
theorem hostResponse : ∀ a0 a1, Statement (.hostResponse a0 a1) := fun _ _ => ⟨rfl, fun _ => rfl⟩
theorem hostMemoryAccess : ∀ a0 a1 a2, Statement (.hostMemoryAccess a0 a1 a2) := fun _ _ _ => ⟨rfl, fun _ => rfl⟩
theorem linkTraining : ∀ a0 a1 a2, Statement (.linkTraining a0 a1 a2) := fun _ _ _ => ⟨rfl, fun _ => rfl⟩
theorem trainingLoss : ∀ a0, Statement (.trainingLoss a0) := fun _ => ⟨rfl, fun _ => rfl⟩
theorem frameStart : ∀ a0, Statement (.frameStart a0) := fun _ => ⟨rfl, fun _ => rfl⟩
theorem frameArrival : ∀ a0 a1, Statement (.frameArrival a0 a1) := fun _ _ => ⟨rfl, fun _ => rfl⟩
theorem powerSample : ∀ a0 a1, Statement (.powerSample a0 a1) := fun _ _ => ⟨rfl, fun _ => rfl⟩
theorem powerOn : ∀ a0, Statement (.powerOn a0) := fun _ => ⟨rfl, fun _ => rfl⟩
theorem firmwareUpdate : ∀ a0 a1 a2 a3, Statement (.firmwareUpdate a0 a1 a2 a3) := fun _ _ _ _ => ⟨rfl, fun _ => rfl⟩
theorem quoteRequest : ∀ a0 a1 a2, Statement (.quoteRequest a0 a1 a2) := fun _ _ _ => ⟨rfl, fun _ => rfl⟩
theorem resultLands : ∀ a0 a1, Statement (.resultLands a0 a1) := fun _ _ => ⟨rfl, fun _ => rfl⟩
theorem panelScoreboardEngineWait : ∀ a0, Statement (.panelScoreboardEngineWait a0) := fun _ => ⟨rfl, fun _ => rfl⟩
theorem netbcContribution : ∀ a0 a1, Statement (.netbcContribution a0 a1) := fun _ _ => ⟨rfl, fun _ => rfl⟩
theorem frameOwnerTableWrite : ∀ a0 a1 a2, Statement (.frameOwnerTableWrite a0 a1 a2) := fun _ _ _ => ⟨rfl, fun _ => rfl⟩
theorem notify : ∀ a0 a1, Statement (.notify a0 a1) := fun _ _ => ⟨rfl, fun _ => rfl⟩
theorem packetTake : ∀ a0, Statement (.packetTake a0) := fun _ => ⟨rfl, fun _ => rfl⟩
theorem packetBegin : ∀ a0, Statement (.packetBegin a0) := fun _ => ⟨rfl, fun _ => rfl⟩
theorem launch : ∀ a0, Statement (.launch a0) := fun _ => ⟨rfl, fun _ => rfl⟩
theorem graphEdit : ∀ a0 a1, Statement (.graphEdit a0 a1) := fun _ _ => ⟨rfl, fun _ => rfl⟩
theorem indirect : ∀ a0 a1, Statement (.indirect a0 a1) := fun _ _ => ⟨rfl, fun _ => rfl⟩
theorem counterAdd : ∀ a0 a1, Statement (.counterAdd a0 a1) := fun _ _ => ⟨rfl, fun _ => rfl⟩
theorem kill : ∀ a0 a1, Statement (.kill a0 a1) := fun _ _ => ⟨rfl, fun _ => rfl⟩
theorem noOp : ∀ a0 a1, Statement (.noOp a0 a1) := fun _ _ => ⟨rfl, fun _ => rfl⟩
theorem packetCompletion : ∀ a0 a1, Statement (.packetCompletion a0 a1) := fun _ _ => ⟨rfl, fun _ => rfl⟩
theorem placement : ∀ a0, Statement (.placement a0) := fun _ => ⟨rfl, fun _ => rfl⟩
theorem roundBoundary : Statement (.roundBoundary) := ⟨rfl, fun _ => rfl⟩
theorem curtain : ∀ a0, Statement (.curtain a0) := fun _ => ⟨rfl, fun _ => rfl⟩
theorem greenRoomSave : ∀ a0, Statement (.greenRoomSave a0) := fun _ => ⟨rfl, fun _ => rfl⟩
theorem resume : ∀ a0, Statement (.resume a0) := fun _ => ⟨rfl, fun _ => rfl⟩
theorem killSequence : ∀ a0, Statement (.killSequence a0) := fun _ => ⟨rfl, fun _ => rfl⟩
theorem killRecord : ∀ a0, Statement (.killRecord a0) := fun _ => ⟨rfl, fun _ => rfl⟩
theorem launchCompletion : ∀ a0, Statement (.launchCompletion a0) := fun _ => ⟨rfl, fun _ => rfl⟩
theorem pageRequest : ∀ a0 a1, Statement (.pageRequest a0 a1) := fun _ _ => ⟨rfl, fun _ => rfl⟩
theorem lateFrame : ∀ a0, Statement (.lateFrame a0) := fun _ => ⟨rfl, fun _ => rfl⟩
theorem apertureGrant : ∀ a0, Statement (.apertureGrant a0) := fun _ => ⟨rfl, fun _ => rfl⟩
theorem forwardedCall : ∀ a0, Statement (.forwardedCall a0) := fun _ => ⟨rfl, fun _ => rfl⟩
theorem reservationDecision : ∀ a0, Statement (.reservationDecision a0) := fun _ => ⟨rfl, fun _ => rfl⟩

end Sys2Proof.Laws.Encoding
end

