-- ==== Sys2Proof/Laws/Syllables.lean ====
section
/-!
SUPPORT. What a syllable of a tile context can change: its tile and its own context, the exchange of its paddock, its
ports, requests and faults; never a vector or x register of any context (a result is in flight until it lands), never
main memory, another tile, a drover thread, a queue, a function or a device register. One lemma per operation.
-/
namespace Sys2Proof.Machine

/-- What stays as it was while context c of tile t performs a syllable. -/
structure Local (t : TileId) (c : Fin 4) (s u : State) : Prop where
  mem : u.mem = s.mem
  issue : u.issue = s.issue
  agenda : u.agenda = s.agenda
  focus : u.focus = s.focus
  fns : u.fns = s.fns
  dev : u.dev = s.dev
  slots : u.slots = s.slots
  drovers : u.drovers = s.drovers
  tiles : ∀ x, x ≠ t → u.tile x = s.tile x
  ctxs : ∀ k, k ≠ c → (u.tile t).ctx k = (s.tile t).ctx k
  x : ((u.tile t).ctx c).bank.x = ((s.tile t).ctx c).bank.x
  v : ((u.tile t).ctx c).bank.v = ((s.tile t).ctx c).bank.v

variable {t : TileId} {c : Fin 4} {s : State}

theorem Local.refl (s : State) : Local t c s s :=
  ⟨rfl, rfl, rfl, rfl, rfl, rfl, rfl, rfl, fun _ _ => rfl, fun _ _ => rfl, rfl, rfl⟩

theorem Local.trans {a b d : State} (h : Local t c a b) (k : Local t c b d) : Local t c a d :=
  ⟨k.mem.trans h.mem, k.issue.trans h.issue, k.agenda.trans h.agenda, k.focus.trans h.focus, k.fns.trans h.fns,
    k.dev.trans h.dev, k.slots.trans h.slots, k.drovers.trans h.drovers,
    fun x hx => (k.tiles x hx).trans (h.tiles x hx), fun j hj => (k.ctxs j hj).trans (h.ctxs j hj), k.x.trans h.x,
    k.v.trans h.v⟩

/-- Composition, for operations that act on the agent in issue. -/
theorem Local.next {a b d : State} (ha : a.issue.agent = .ctx t c) (h : Local t c a b)
    (k : b.issue.agent = .ctx t c → Local t c b d) : Local t c a d :=
  h.trans (k (by rw [h.issue]; exact ha))

theorem Local.ite {p : Prop} [Decidable p] {a b : State} (h : Local t c s a) (k : Local t c s b) :
    Local t c s (if p then a else b) := by split <;> assumption

theorem Local.foldl {β : Type} {f : State → β → State} (step : ∀ s b, s.issue.agent = .ctx t c → Local t c s (f s b)) :
    ∀ (l : List β) (s : State), s.issue.agent = .ctx t c → Local t c s (l.foldl f s)
  | [], s, _ => .refl s
  | b :: r, s, h => (step s b h).next h fun h' => Local.foldl step r (f s b) h'

/-- A change of the tile that keeps its contexts. -/
theorem Local.modTile {f : Tile → Tile} (hf : (f (s.tile t)).ctxs = (s.tile t).ctxs := by rfl) : Local t c s (s.modTile t f) := by
  have e : (s.modTile t f).tile t = f (s.tile t) := by simp [State.modTile, State.tile]
  have hc : ∀ k, ((s.modTile t f).tile t).ctx k = (s.tile t).ctx k := fun k => by rw [e]; unfold Tile.ctx; rw [hf]
  refine ⟨rfl, rfl, rfl, rfl, rfl, rfl, rfl, rfl, fun x hx => ?_, fun k _ => hc k, by rw [hc], by rw [hc]⟩
  simp [State.modTile, State.tile, Fin.val_ne_of_ne (Ne.symm hx)]

/-- A change of the context itself that keeps its x and v registers. -/
theorem Local.modCtx {f : Ctx → Ctx} (hx : (f ((s.tile t).ctx c)).bank.x = ((s.tile t).ctx c).bank.x := by rfl)
    (hv : (f ((s.tile t).ctx c)).bank.v = ((s.tile t).ctx c).bank.v := by rfl) : Local t c s (s.modCtx (.ctx t c) f) := by
  have e : (s.modCtx (.ctx t c) f).tile t = (s.tile t).modCtx c f := by simp [State.modCtx, State.modTile, State.tile]
  have ec : ((s.modCtx (.ctx t c) f).tile t).ctx c = f ((s.tile t).ctx c) := by rw [e]; simp [Tile.modCtx, Tile.ctx]
  refine ⟨rfl, rfl, rfl, rfl, rfl, rfl, rfl, rfl, fun x h => ?_, fun k hk => ?_, by rw [ec, hx], by rw [ec, hv]⟩
  · simp [State.modCtx, State.modTile, State.tile, Fin.val_ne_of_ne (Ne.symm h)]
  · rw [e]; simp [Tile.modCtx, Tile.ctx, Fin.val_ne_of_ne (Ne.symm hk)]

theorem Local.here (h : s.issue.agent = .ctx t c) : s.homeTile = t := by unfold State.homeTile; rw [h]; rfl

theorem Local.home {f : Tile → Tile} (h : s.issue.agent = .ctx t c) (hf : (f (s.tile t)).ctxs = (s.tile t).ctxs := by rfl) :
    Local t c s (s.modTile s.homeTile f) := by rw [Local.here h]; exact .modTile hf

theorem Local.agent {f : Ctx → Ctx} (h : s.issue.agent = .ctx t c)
    (hx : (f ((s.tile t).ctx c)).bank.x = ((s.tile t).ctx c).bank.x := by rfl)
    (hv : (f ((s.tile t).ctx c)).bank.v = ((s.tile t).ctx c).bank.v := by rfl) : Local t c s (s.modCtx s.issue.agent f) := by
  rw [h]; exact .modCtx hx hv

theorem Local.modMem {f : TileMem → TileMem} (h : s.issue.agent = .ctx t c) : Local t c s (s.modMem s.homeTile f) :=
  .home h

theorem Local.modBank {f : Bank → Bank} (h : s.issue.agent = .ctx t c)
    (hx : (f ((s.tile t).ctx c).bank).x = ((s.tile t).ctx c).bank.x := by rfl)
    (hv : (f ((s.tile t).ctx c).bank).v = ((s.tile t).ctx c).bank.v := by rfl) : Local t c s (s.modBank f) := .agent h hx hv

theorem Local.modTail {f : Tail → Tail} (h : s.issue.agent = .ctx t c) : Local t c s (s.modTail f) := .agent h
theorem Local.addWait {w : PostWait} (h : s.issue.agent = .ctx t c) : Local t c s (s.addWait w) := .modTail h
theorem Local.transfer {n : Nat} (h : s.issue.agent = .ctx t c) : Local t c s (s.transfer n) := .modTail h

theorem Local.result {w : RegWrite} {fl : Flags} {u : FpUnit} {n : Nat} {d : Bool} (h : s.issue.agent = .ctx t c) :
    Local t c s (s.result w fl u n d) := .agent h

theorem Local.modPad {p : Nat} {f : Paddock → Paddock} : Local t c s (s.modPad p f) :=
  ⟨rfl, rfl, rfl, rfl, rfl, rfl, rfl, rfl, fun _ _ => rfl, fun _ _ => rfl, rfl, rfl⟩

theorem Local.modNet {x : TileId} {f : PadNet → PadNet} : Local t c s (s.modNet x f) := by
  unfold State.modNet; split
  · exact .modPad
  · exact .refl _

theorem Local.modPort {k : Bool} {f : Port → Port} : Local t c s (s.modPort k f) := by
  cases k <;> exact ⟨rfl, rfl, rfl, rfl, rfl, rfl, rfl, rfl, fun _ _ => rfl, fun _ _ => rfl, rfl, rfl⟩

theorem Local.orFresh {v : Option Nat} : Local t c s (s.orFresh v).2 := by
  cases v
  · exact ⟨rfl, rfl, rfl, rfl, rfl, rfl, rfl, rfl, fun _ _ => rfl, fun _ _ => rfl, rfl, rfl⟩
  · exact .refl s

/-- The system fault that stops nothing (R325). -/
theorem Local.oweToken {i0 : Word} (h : s.issue.agent = .ctx t c) : Local t c s (s.oweToken i0) := by
  unfold State.oweToken State.freshWord
  dsimp only
  rw [h]
  exact (show Local t c s { s with fresh := s.fresh + 1 } from
    ⟨rfl, rfl, rfl, rfl, rfl, rfl, rfl, rfl, fun _ _ => rfl, fun _ _ => rfl, rfl, rfl⟩).trans .modCtx

theorem Local.openLoop {stop n k : Nat} (h : s.issue.agent = .ctx t c) : Local t c s (s.openLoop stop n k) := by
  unfold State.openLoop; exact .ite (.modTail h) (.modBank h)

theorem Local.request {k : CallKind} {l : List Word} {d : Fin 32} (h : s.issue.agent = .ctx t c) :
    Local t c s (s.request k l d) := by
  have a := Local.addWait (w := .reply s.serial) h
  exact ⟨a.mem, a.issue, a.agenda, a.focus, a.fns, a.dev, a.slots, a.drovers, a.tiles, a.ctxs, a.x, a.v⟩

/-- A CSR write reaches no x or v register (R127). -/
theorem Ctx.setCsr_regs (k : Ctx) (n : Nat) (w : Word) : (k.setCsr n w).bank.x = k.bank.x ∧ (k.setCsr n w).bank.v = k.bank.v := by
  unfold Ctx.setCsr
  repeat' split
  all_goals exact ⟨rfl, rfl⟩

theorem Local.csrOp {d : Fin 32} {k : BitVec 12} {w : Word} (h : s.issue.agent = .ctx t c) : Local t c s (s.csrOp d k w) := by
  unfold State.csrOp
  have hr := Local.result (w := .x d (s.csr k.toNat)) (fl := 0) (u := .scalar) (n := 1) (d := false) h
  refine hr.next h fun h' => ?_
  rw [h]
  exact .modCtx (Ctx.setCsr_regs ..).1 (Ctx.setCsr_regs ..).2

theorem Local.send {a : Access} (h : s.issue.agent = .ctx t c) : Local t c s (s.send a) := .home h
theorem Local.claim {q : Fin 16} {k : Nat} (h : s.issue.agent = .ctx t c) : Local t c s (s.claim q k) := .modBank h

theorem Local.missOn {k : Fin 16} (h : s.issue.agent = .ctx t c) : Local t c s (s.missOn k) := by
  unfold State.missOn; exact .ite (.refl _) (.modBank h)

/-- A store that its home slice has refused is kept (R189). -/
theorem Local.unlessRefused {u : State} (h : s.issue.agent = .ctx t c) (hu : Local t c s u) :
    Local t c s (s.unlessRefused u) := by
  unfold State.unlessRefused
  split
  · split
    · exact .ite (.agent h) (.refl s)
    · exact hu
  · exact hu

theorem Local.loadTo {q k : Fin 16} {off : Int} {n m : Nat} {kind : AccKind} (h : s.issue.agent = .ctx t c) :
    Local t c s (s.loadTo q k off n m kind) :=
  (Local.send h).next h fun h' => (Local.claim h').next h' fun h'' => .missOn h''

theorem Local.storeTo {k : Fin 16} {off : Int} {l : List Byte} (h : s.issue.agent = .ctx t c) :
    Local t c s (s.storeTo k off l) := .unlessRefused h (.send h)

theorem Local.atomicTo {q k : Fin 16} {off n : Nat} {kind : AccKind} {o : MemOrd} {sc : Scope} (h : s.issue.agent = .ctx t c) :
    Local t c s (s.atomicTo q k off n kind o sc) := .unlessRefused h ((Local.send h).next h fun h' => .claim h')

theorem Local.pushCopy {q : Fin 4} {w : CopyWork} (h : s.issue.agent = .ctx t c) : Local t c s (s.pushCopy q w) := .home h
theorem Local.pushM {w : MWork} (h : s.issue.agent = .ctx t c) : Local t c s (s.pushM w) := by
  unfold State.pushM; exact .home h
theorem Local.pushE5 {w : E5Work} (h : s.issue.agent = .ctx t c) : Local t c s (s.pushE5 w) := .home h

theorem Local.collective {w : E5Work} (h : s.issue.agent = .ctx t c) : Local t c s (s.collective w) :=
  (Local.pushE5 h).next h fun h' => .addWait h'

theorem Local.pushRecord {q : Fin 4} {p : Parsed CopyRec} (h : s.issue.agent = .ctx t c) : Local t c s (s.pushRecord q p) := by
  cases p with
  | ok r => exact .pushCopy h
  | illegal => exact .refl _
  | route => exact .refl _

/-- Merging partials leaves the tile's contexts (R280). -/
theorem Tile.drain_ctxs (T : Tile) (k : Fin 4) (n : Nat) : (T.drain k n).1.ctxs = T.ctxs := rfl

theorem Local.drain {k : Fin 4} {n : Nat} (h : s.issue.agent = .ctx t c) : Local t c s (s.drain k n) := by
  unfold State.drain
  have e : s.here = s.tile t := by unfold State.here; rw [Local.here h]
  have a : Local t c s (s.modTile s.homeTile fun _ => (s.here.drain k n).1) := .home h (by rw [e]; exact Tile.drain_ctxs ..)
  refine a.next h fun h' => ?_
  dsimp only; rw [h]; exact .modCtx

theorem Local.linkReset {p : Bool} {k : Fin 64} {b : Bool} {f : Nat} (h : s.issue.agent = .ctx t c) :
    Local t c s (s.linkReset p k b f) := by
  unfold State.linkReset; exact (Local.home h).trans .modPort

/-- A syllable whose bundle has issued is local when what it performs is. -/
theorem Local.syllable {i : Instr} {p : State → State} (h : s.issue.cleared = true) (hp : Local t c s (p s)) :
    ∃ u, Machine.syllable i p s = .next u ∧ Local t c s u :=
  ⟨_, syllable_cleared h, .ite hp (.refl s)⟩

end Sys2Proof.Machine
end

