-- ==== Sys2Proof/Tests/Slice0.lean ====
section
/-!
SUPPORT. Small tests: ill-formed syllables and bundles that the decoder refuses, words that the spec writes out, single
steps with results worked out by hand from the spec, and, for every statement with hypotheses, a state that meets them.
-/
namespace Sys2Proof.Tests
set_option Elab.async false
open Sys2Proof Sys2Proof.Machine

/-- The guard p0. -/
def g0 : Guard := ⟨0, false⟩
def r1 : Src := .reg 1
def r2 : Src := .reg 2
def r3 : Src := .reg 3

/-- Context 0 of tile 0 in the middle of a bundle: header index 0, one syllable, waits and checks passed. -/
def issuing : State := { State.reset with issue := { Issue.none with n := 1, cleared := true } }

/-- The same with a context to start from, its bundle at its end still open. -/
def issuingAs (k : Ctx) : State :=
  { issuing.modCtx (.ctx 0 0) (fun _ => { k with sel := .ready, tail := some issuing.openTail }) with
    issue := { issuing.issue with ctx := k } }.modTile 0 fun T => { T with run := some 0 }

/-- Every syllable of a list performs at a state. -/
abbrev AllPerform (l : List Instr) (s : State) : Prop := s.issue.cleared = true ∧ l.all s.guardTrue = true

theorem performs_of_all {l : List Instr} {s : State} (h : AllPerform l s) : ∀ i ∈ l, Performs i s := fun i hi =>
  ⟨h.1, List.all_eq_true.mp h.2 i hi⟩

/-! Ill-formed terms, one for each check of formation (R95). -/

theorem test_loop_stages_refused : (Instr.loop g0 0 9 1).formed false = false := by decide
theorem test_loopx_stages_refused : (Instr.loopx g0 r1 0 9).formed false = false := by decide
theorem test_csr_number_refused :
    (Instr.csrrd g0 1 0x005).formed false = false ∧ (Instr.csrwr g0 1 r1 0x109).formed false = false ∧
    (Instr.csrset g0 1 r1 0x205).formed false = false ∧ (Instr.csrclr g0 1 r1 0x080).formed false = false := by decide
theorem test_integer_type_refused :
    ([.add g0 .f32 1 r1 r2, .addi g0 .f16 1 r1 0, .sub g0 .bf16 1 r1 r2, .mul g0 .f32 1 r1 r2, .mulh g0 .f32 1 r1 r2,
      .mulhu g0 .f32 1 r1 r2, .div g0 .f32 1 r1 r2, .divu g0 .f32 1 r1 r2, .rem g0 .f32 1 r1 r2, .remu g0 .f32 1 r1 r2,
      .and g0 .f32 1 r1 r2, .andi g0 .f32 1 r1 0, .or g0 .f32 1 r1 r2, .ori g0 .f32 1 r1 0, .xor g0 .f32 1 r1 r2,
      .xori g0 .f32 1 r1 0, .shl g0 .f32 1 r1 r2, .shr g0 .f32 1 r1 r2, .sar g0 .f32 1 r1 r2, .clz g0 .f32 1 r1,
      .ctz g0 .f32 1 r1, .popc g0 .f32 1 r1, .min g0 .f32 1 r1 r2, .max g0 .f32 1 r1 r2, .minu g0 .f32 1 r1 r2,
      .maxu g0 .f32 1 r1 r2, .cmp g0 .f32 1 r1 r2 .eq, .cmpi g0 .f32 1 r1 .eq 0] : List Instr).all
      (fun i => !i.formed false) = true := by decide
theorem test_shift_amount_refused :
    (Instr.shli g0 .i8 1 r1 8).formed false = false ∧ (Instr.shri g0 .i32 1 r1 32).formed false = false ∧
    (Instr.sari g0 .i64 1 r1 64).formed false = false ∧ (Instr.sari g0 .i64 1 r1 63).formed false = true := by decide
theorem test_field_beyond_64_refused :
    (Instr.extb g0 1 r1 60 4 false).formed false = false ∧ (Instr.insb g0 1 r1 1 63).formed false = false ∧
    (Instr.insb g0 1 r1 0 63).formed false = true := by decide
theorem test_float_type_refused :
    ([.fadd g0 .i32 1 r1 r2 .rne, .fsub g0 .i32 1 r1 r2 .rne, .fmul g0 .i32 1 r1 r2 .rne, .ffma g0 .i32 1 r1 r2 r3 .rne,
      .fdiv g0 .i32 1 r1 r2 .rne, .fsqrt g0 .i32 1 r1 .rne, .fcmp g0 .i32 1 r1 r2 .eq,
      .fcvt g0 .i32 1 r1 .rne .i64 false, .fcvt g0 .f32 1 r1 .rne .f32 false, .fcvt g0 .f32 1 r1 .rne .f16 true] : List Instr).all
      (fun i => !i.formed false) = true := by decide
theorem test_load_forms_refused :
    ([.lds g0 .f32 1 r1 0 true 0, .ldvs g0 .f32 1 r1 r2 0, .mld g0 .i64 (.ring 0) r1 0 true 0, .mgath g0 .f32 0 r1 r2 3,
      .amo g0 .i16 0 r1 r2 .add .rlx .tile 0, .amo g0 .i64 0 r1 r2 .add .rlx .device 0,
      .amocas g0 .i8 0 r1 r2 r3 .rlx .tile 0] : List Instr).all (fun i => !i.formed false) = true := by decide
theorem test_ring_shape_refused :
    ([.ringset g0 0 r1 0 3, .ringset g0 0 r1 17 3, .ringset g0 0 r1 1 2, .ringset g0 0 r1 1 13, .ringset g0 0 r1 12 9] : List Instr).all
      (fun i => !i.formed false) = true ∧ (Instr.ringset g0 0 r1 0 0).formed false = true := by decide
theorem test_lane_forms_refused :
    ([.vadd g0 .i64 1 r1 r2 .rne false false, .vadd g0 .i32 1 r1 r2 .rz false false, .vsub g0 .f32 1 r1 r2 .rne true false,
      .vmul g0 .i32 1 r1 r2 .rne false true, .vfma g0 .f32 1 r1 r2 r3 .rne false true, .vfms g0 .i64 1 r1 r2 r3 .rne false false,
      .vmin g0 .f32 1 r1 r2 true, .vmax g0 .i64 1 r1 r2 false, .vabs g0 .f32 1 r1 true, .vneg g0 .f32 1 r1 true,
      .vand g0 .f32 1 r1 r2, .vor g0 .i64 1 r1 r2, .vxor g0 .f16 1 r1 r2, .vshl g0 .i8 1 r1 (.imm 8), .vshr g0 .i16 1 r1 (.imm 16),
      .vsar g0 .f32 1 r1 (.imm 0), .vcmp g0 .f32 1 r1 r2 .c5, .vsel g0 .i64 1 r1 r2 r3] : List Instr).all
      (fun i => !i.formed false) = true := by decide
theorem test_conversion_forms_refused :
    ([.vcvt g0 1 1 r1 .rne false false 1 0 0, .vcvt g0 1 1 r1 .rne true false 4 0 0, .vcvt g0 1 1 r1 .rz false false 2 0 0,
      .vcvt g0 7 1 r1 .rne false false 7 2 0, .vcvt g0 7 1 r1 .rne false false 4 0 0, .vcvt g0 4 1 r1 .rne false false 7 2 4,
      .vquant g0 .i32 1 r1 2 .rne .mx8e4 0, .vquant g0 .f32 1 r1 2 .rne .f16 0, .vdeq g0 .f32 1 r1 r2 .rne .mx8e4 4] : List Instr).all
      (fun i => !i.formed false) = true := by decide
theorem test_approximation_and_reduction_forms_refused :
    ([.vrcp g0 .i32 1 r1 .rne true, .vrsq g0 .f32 1 r1 .rz false, .vexp2 g0 .i8 1 r1 .rne true, .vlog2 g0 .f32 1 r1 .ru false,
      .vrsum g0 .f32 1 r1 .rne true false, .vrmax g0 .f32 1 r1 true, .vrmin g0 .i64 1 r1 false,
      .vscan g0 .i32 1 r1 .rne true false .max] : List Instr).all (fun i => !i.formed false) = true := by decide
theorem test_lane_move_forms_refused :
    ([.vperm g0 .i64 1 r1 r2, .vsplat g0 .i64 1 r1, .vins g0 .i64 1 r1 r2, .vext g0 .f32 1 r1 r2 true, .viota g0 .f32 1 r1 r2,
      .vpart g0 .i16 1 r1 r2 3 false 0, .vcomp g0 .i64 1 r1 r2 3, .vexpd g0 .i64 1 r1 r2, .vpcnt g0 .i64 1 r1,
      .vmovp g0 .i64 (.any 1 r1), .vmulh g0 .f32 1 r1 r2 false, .vclamp g0 .f32 1 r1 r2 r3 true] : List Instr).all
      (fun i => !i.formed false) = true := by decide
theorem test_matrix_forms_refused :
    ([.mma g0 0 (.panel 1) (.panel 2) r1 .bf16 .i8 0 false, .mma g0 0 (.panel 1) (.pop 2) r1 .f32 .f32 3 false,
      .mmas g0 0 (.pop 1) (.pop 2) (.pop 3) .bf16 .i8 0 false false, .mldp g0 .i64 0 r1 0 r2 false, .mldp g0 .f32 0 r1 0 r2 true,
      .mstp g0 .i32 0 r1 0 r2 .rz false false, .mstp g0 .f32 0 r1 0 r2 .rne true false, .mstp g0 .i8 0 r1 0 r2 .rne false true,
      .mops g0 (3 * 8), .mops g0 (2 ^ 19), .mwin g0 6] : List Instr).all (fun i => !i.formed false) = true := by decide
theorem test_engine_forms_refused :
    ([.cntadd g0 r1 6 0, .cntrd g0 1 r1 false 0, .qfence g0 0, .bar g0 0 .tile 1, .bar g0 0 .paddock 0,
      .netred g0 .i64 1 r1 r2 0 .add false false, .netred g0 .f32 1 r1 r2 0 .add true false, .netred g0 .i32 1 r1 r2 0 .max false true,
      .netbc g0 .i64 1 r1 r2 r3 0, .redopen g0 1 r1 false 278 0, .lksendData g0 0 r1 0 false 0 0 false 1,
      .lkrecvPost g0 0 r1 0 false 0 0 false 1, .cpywait g0 0] : List Instr).all (fun i => !i.formed false) = true := by decide

/-- What only a drover thread or only a tile accepts (R106, R157, R190). -/
theorem test_issuer_forms_refused :
    ([.endt g0, .condw g0 r1 0 .set, .token g0 r1 r2, .sysc g0 0, .csrrd g0 1 0x10, .csrwr g0 1 r1 0x200, .csrset g0 1 r1 8,
      .csrclr g0 1 r1 3, .add g0 .i64 1 (.pop 0) r2, .mld g0 .i64 (.ring 0) r1 0 false 0, .mld g0 .i64 (.xreg 1) r1 1 false 0,
      .mst g0 .i64 r1 r2 1 0, .lds g0 .i64 1 r1 0 false 0, .vand g0 .i32 1 r1 r2, .mzero g0 0, .drain g0] : List Instr).all
      (fun i => !i.formed true) = true ∧
    (Instr.mld g0 .i64 (.xreg 1) r1 0 false 0).formed false = false ∧ (Instr.mld g0 .i64 (.xreg 1) r1 0 false 0).formed true = true := by
  decide

/-- A step of the hardware is no syllable. -/
theorem test_step_is_no_syllable : (Instr.hotReset).formed false = false ∧ decode false .k 0 = none := by decide

/-! Bundles that a fetch refuses (R89, R91, R98, R106, R156). -/

theorem test_header_magic_refused : decodeBundle false 0 0xB613800000000000 [0, 0, 0] 16383 = .error .target := rfl
theorem test_header_reserved_refused :
    decodeBundle false 0 0xB701000000000001 [0x0A00000000000000] 16383 = .error .header ∧
    decodeBundle false 0 0xB700000000000000 [] 16383 = .error .header := ⟨rfl, rfl⟩
theorem test_bundle_beyond_store_refused :
    decodeBundle false 16383 0xB701000000000000 [0x0A00000000000000] 16383 = .error .target := rfl
theorem test_drover_slot_refused : decodeBundle true 0 0xB780000000000000 [0x0A00000000000000] 16383 = .error .header := rfl
theorem test_same_destination_refused :
    sameDestination [] [(.i0, .add g0 .i64 5 r1 r2), (.i1, .add g0 .i64 5 r1 r2)] = some .i1 ∧
    sameDestination [] [(.i0, .add g0 .i64 0 r1 r2), (.i1, .add g0 .i64 0 r1 r2)] = none := by decide
theorem test_predicate_clash_refused :
    predClash [(.k, .csrwr g0 1 r1 8), (.i0, .cmp g0 .i64 1 r1 r2 .eq)] = some .i0 ∧
    predClash [(.k, .csrwr g0 1 r1 3), (.i0, .cmp g0 .i64 1 r1 r2 .eq)] = none := by decide

/-! Words the spec writes out, or worked out bit by bit from its field tables. -/

/-- A bundle read off a fetch that answers one. -/
theorem ok_of {x : Except FetchError Bundle} {b : Bundle}
    (h : (match x with | .ok c => decide (c = b) | .error _ => false) = true) : x = .ok b := by
  cases x with
  | ok c => exact congrArg _ (of_decide_eq_true h)
  | error e => cases h

theorem test_word_yield : decode false .k 0x0A08000000000000 = some (.yield ⟨0, true⟩) := by decide
theorem test_word_loop : decode false .k 0x0700000000020005 = some (.loop g0 2 0 5) := by decide
theorem test_word_call : decode false .k 0x0400000000050000 = some (.call g0 5) := by decide
theorem test_word_add : decode false .i 0x0100041080000000 = some (.add g0 .i64 1 (.reg 1) (.reg 2)) := by decide
theorem test_word_movw : decode false .i 0x2100040000000000 = some (.movw g0 1 0) := by decide
theorem test_word_mld : decode false .a 0x0F010C5200000010 = some (.mld g0 .i32 (.ring 3) (.reg 5) 2 false 16) := by decide
theorem test_word_vfma :
    decode false .v 0x0404105884000000 = some (.vfma g0 .f32 4 (.reg 5) (.pop 2) (.reg 4) .rne false false) := by decide
theorem test_word_mma :
    decode false .m 0x0100021880418800 = some (.mma g0 0 (.pop 1) (.pop 2) (.reg 0) .f4 .f6 1 false) := by decide
theorem test_word_cpy : decode false .e 0x0300086200000000 = some (.cpy g0 2 (.reg 6) 1) := by decide
theorem test_word_merge : decode false .e 0x1500005187004000 = some (.merge g0 (.reg 5) (.reg 6) (.reg 7) 1) := by decide
theorem test_unassigned_opcode_refused : decode false .k 0xFF00000000000000 = none := by decide
theorem test_decodes_the_words_of_the_spec : Obligations.DecodesTheWordsOfTheSpec := by
  refine ⟨ok_of (by decide +kernel), by decide, by decide, by decide, by decide, by decide, by decide, by decide, by decide, by decide, by decide, by decide⟩

/-! States that meet the hypotheses of each statement. -/

theorem meets_IntegerSumsAndProducts : Ty.isInt .i64 = true ∧ Ty.isInt .i8 = true ∧
    AllPerform [.add g0 .i64 1 r1 r2, .addi g0 .i8 1 r1 5, .sub g0 .i64 0 r1 r2, .mul g0 .i32 1 r1 r2, .mulh g0 .i64 1 r1 r2,
      .mulhu g0 .i64 1 r1 r2] issuing := by decide +kernel
theorem meets_IntegerDivision : Ty.isInt .i32 = true ∧
    AllPerform [.div g0 .i32 1 r1 r2, .rem g0 .i32 1 r1 r2, .divu g0 .i32 1 r1 r2, .remu g0 .i32 0 r1 r2] issuing := by decide +kernel
theorem meets_IntegerLogicAndShifts : Ty.isInt .i64 = true ∧ (63 : BitVec 36).toNat < Ty.i64.bits ∧ (0 : BitVec 36).toNat < Ty.i8.bits ∧
    AllPerform [.and g0 .i64 1 r1 r2, .andi g0 .i64 1 r1 1, .or g0 .i64 1 r1 r2, .ori g0 .i64 1 r1 1, .xor g0 .i64 1 r1 r2,
      .xori g0 .i64 1 r1 1, .shl g0 .i64 1 r1 r2, .shr g0 .i64 1 r1 r2, .sar g0 .i64 1 r1 r2, .shli g0 .i64 1 r1 63,
      .shri g0 .i64 1 r1 63, .sari g0 .i64 1 r1 63, .shli g0 .i8 1 r1 0] issuing := by decide +kernel
theorem meets_IntegerCountsAndChoices : Ty.isInt .i8 = true ∧
    AllPerform [.clz g0 .i8 1 r1, .ctz g0 .i8 1 r1, .popc g0 .i8 1 r1, .min g0 .i8 1 r1 r2, .max g0 .i8 1 r1 r2,
      .minu g0 .i8 1 r1 r2, .maxu g0 .i8 1 r1 r2] issuing := by decide +kernel
theorem meets_ConstantsAndBitFields : (0 : BitVec 6).toNat + ((63 : BitVec 6).toNat + 1) ≤ 64 ∧ (63 : BitVec 6).toNat + ((0 : BitVec 6).toNat + 1) ≤ 64 ∧
    AllPerform [.movw g0 1 5, .movhi g0 1 5, .extb g0 1 r1 0 63 true, .insb g0 1 r1 63 0] issuing := by decide +kernel
theorem meets_ComparesAndPredicates : Ty.isInt .i64 = true ∧ issuing.P 0 = true ∧ issuing.P 1 = false ∧
    AllPerform [.cmp g0 .i64 1 r1 r2 .ltu, .cmpi g0 .i64 0 r1 .ge 5, .plog g0 1 2 3 6, .pmov g0 (.fx 1 r1), .pmov g0 (.tx 1 2),
      .pmov g0 (.pp 8 1), .sel g0 1 r1 r2 0, .sel g0 1 r1 r2 1] issuing := by decide +kernel
theorem meets_ScalarFloats : Ty.isInt .f16 = false ∧ Ty.isInt .i64 = true ∧ (fArg .f16 0x7E00).isNan = true ∧
    AllPerform [.fadd g0 .f16 1 r1 r2 .rz, .fsub g0 .f16 1 r1 r2 .rne, .fmul g0 .f32 1 r1 r2 .rne, .ffma g0 .bf16 1 r1 r2 r3 .ru,
      .fdiv g0 .f32 1 r1 r2 .rne, .fsqrt g0 .f32 1 r1 .rne, .fcvt g0 .f32 1 r1 .rne .i64 true, .fcvt g0 .i64 1 r1 .rne .f32 false,
      .fcmp g0 .f16 1 r1 r2 .lt] issuing := by decide +kernel

/-- x1 of the issuing context is a NaN of f16. -/
def issuingNan : State := { issuing with issue := { issuing.issue with ctx := Ctx.launch.modBank fun b => { b with x := b.x.set 1 0x7E00 } } }
theorem meets_ScalarFloats_nan : (fArg .f16 (issuingNan.X 1 r1)).isNan = true ∧ AllPerform [(.fcmp g0 .f16 1 r1 r2 .le)] issuingNan := by decide +kernel

/-- Operands that meet each value clause: infinities and zeros of both signs, a quiet and a signaling NaN, and numbers of both signs. -/
theorem meets_ScalarFloats_values :
    let x : Nat → Val := fun c => fArg .f16 (BitVec.ofNat 64 c)
    ((x 0x7C00).isInf = true ∧ (x 0xFC00).isInf = true ∧ (x 0xFC00).sign = true) ∧ ((x 0x8000).isFin = true ∧ (x 0x8000).rat = 0 ∧ (x 0x8000).sign = true) ∧
    ((x 0x7E00).isNan = true ∧ (x 0x7E00).isSig = false ∧ (x 0x7D00).isSig = true) ∧ ((x 0xBC00).isFin = true ∧ (x 0xBC00).rat < 0) ∧
    ((x 0x4200).isFin = true ∧ 0 < (x 0x4200).rat) := by decide +kernel
theorem meets_ScalarFloats_fma : (Exact.num 0 false).mul (.inf false) = .nan ∧ (Exact.num 1 false).mul (.num 1 false) ≠ .nan :=
  ⟨rfl, fun h => nomatch h⟩

theorem meets_BranchesNameTheirTarget : issuing.issue.hdr ≤ 16383 ∧ issuing.P 0 ≠ false ∧ issuing.P 0 = true ∧
    0 ≤ (issuing.issue.hdr : Int) + (0 : BitVec 32).toInt ∧ (issuing.issue.hdr : Int) + (0xFFFFFFFF : BitVec 32).toInt < 0 ∧
    AllPerform [.br g0 0, .br g0 0xFFFFFFFF, .brp g0 4 false 0, .brp g0 4 true 0, .call g0 5, .brx g0 r1 true, .callx g0 1 r2 false, .ret g0 r3]
      issuing := by decide +kernel
theorem meets_LoopsOpenAndClose : issuing.issue.hdr ≤ 16383 ∧ 0 ≤ (issuing.issue.hdr : Int) + (2 : BitVec 32).toInt ∧
    issuing.X 1 r1 = 0 ∧ issuingNan.X 1 r1 ≠ 0 ∧
    AllPerform [.loop g0 2 0 1, .loop g0 2 8 0, .loopx g0 r1 3 0, .close g0] issuing ∧ AllPerform [.loopx g0 r1 3 8] issuingNan := by decide +kernel

/-- Context 0 of tile 0 with its bundle at its end, that end and loop stack given. -/
def atEnd (tl : Tail) (l : List LoopEntry) : State :=
  State.reset.modCtx (.ctx 0 0) fun k => { k with tail := some tl, bank := { k.bank with loops := l } }
def plainEnd : Tail := ⟨7, 9, none, none, none, false, false, .none, []⟩
def entry (stages : Nat) : LoopEntry := { start := 3, stop := 7, n := 2, i := 1, stages := stages, closed := false }
theorem meets_ClosingPointLoopAction_loop :
    let k := (atEnd plainEnd [entry 8]).ctx (.ctx 0 0)
    k.tail = some plainEnd ∧ k.bank.loops = [entry 8] ∧ (entry 8).stop = plainEnd.hdr ∧ (∀ r ∈ k.flight, r.write.isPred = false) ∧
    (entry 8).stages ≤ 8 ∧ (entry 0).stages = 0 ∧ ((atEnd plainEnd [entry 0]).ctx (.ctx 0 0)).bank.loops = [entry 0] := by decide +kernel
theorem meets_ClosingPointLoopAction_target :
    ((atEnd { plainEnd with target := some 5 } []).ctx (.ctx 0 0)).tail = some { plainEnd with target := some 5 } := by decide +kernel

theorem meets_YieldGivesUpTheTile :
    let s := issuingAs Ctx.launch
    s.issue.agent = .ctx 0 0 ∧ AllPerform [.close g0, .yield g0] s ∧ (s.ctx (.ctx 0 0)).tail = some s.openTail ∧
    (s.ctx (.ctx 0 0)).bank.closesAt s.issue.hdr = false ∧ (s.tile 0).run = some 0 ∧ (s.tile 0).stopReq = false := by decide +kernel
/-- A bundle that yields while it waits for its SCENE. -/
theorem meets_YieldGivesUpTheTile_waits :
    let s := issuingAs Ctx.launch
    let tl := { s.openTail with yields := true, waits := [.e5 4] }
    let u := (s.modTail fun _ => tl).modTile 0 fun T => { T with e5 := [⟨4, 0, 0, .scene, false, 4, false⟩] }
    (u.ctx (.ctx 0 0)).tail = some tl ∧ (∀ w ∈ tl.waits, u.waitStands 0 0 w = true) ∧ tl.ends = false ∧ tl.soft = none ∧ tl.refused = none ∧
    tl.eret = .none ∧ (u.tile 0).run = some 0 ∧ (u.tile 0).stopReq = false := by decide +kernel
/-- Inside a loop, with nothing in flight, and with one result in flight. -/
theorem meets_TaskEnds : ∀ f ∈ [[], [(⟨.x 0 5, 0, .scalar, 3, false, none⟩ : InFlight)]],
    let s := issuingAs { Ctx.launch.modBank (fun b => { b with loops := [entry 0] }) with flight := f }
    s.issue.agent = .ctx 0 0 ∧ AllPerform [(.endt g0)] s ∧ (s.ctx (.ctx 0 0)).tail = some s.openTail ∧
    (s.ctx (.ctx 0 0)).bank.loops = [entry 0] ∧ (s.ctx (.ctx 0 0)).flight = f ∧ (s.tile 0).run = some 0 := by decide +kernel

/-- A context whose trap vector is valid. -/
def withVector : Ctx := { Ctx.launch with trap := { TrapRegs.launch with vec := 0x8000000000000100 } }
/-- In a bundle that is no closing point, in one at the closing point of its loop, and in one that branches. -/
theorem meets_SoftwareTrapIsTaken : ∀ x ∈ [([], none, false), ([{ entry 8 with stop := 0 }], none, true), ([], some 9, false)],
    let l := x.1
    let s := (issuingAs (withVector.modBank fun b => { b with loops := l })).modTail fun tl => { tl with target := x.2.1 }
    let tl := { s.openTail with target := x.2.1 }
    s.issue.agent = .ctx 0 0 ∧ AllPerform [(.trap g0 5)] s ∧ s.issue.slot < 8 ∧
    (s.ctx (.ctx 0 0)).tail = some tl ∧ tl.waits = [] ∧ tl.soft = none ∧ tl.refused = none ∧ tl.yields = false ∧ tl.ends = false ∧ tl.eret = .none ∧
    (s.ctx (.ctx 0 0)).bank.loops = l ∧ (s.ctx (.ctx 0 0)).bank.closesAt s.issue.hdr = x.2.2 ∧ (s.ctx (.ctx 0 0)).flight = [] ∧
    (s.ctx (.ctx 0 0)).trap.handling = false ∧ (s.ctx (.ctx 0 0)).trap.vec.getLsbD 63 = true := by decide +kernel
def request : TrapReq := ⟨0x13, false, 3, 5, 4, 1, 2, none, none⟩
def pendingIn (k : Ctx) : State := State.reset.modCtx (.ctx 0 0) fun _ => { k with pending := some request }
theorem meets_TrapDelivery :
    ((pendingIn withVector).ctx (.ctx 0 0)).pending = some request ∧ ((pendingIn withVector).ctx (.ctx 0 0)).flight = [] ∧
    ((pendingIn withVector).ctx (.ctx 0 0)).trap.handling = false ∧ ((pendingIn withVector).ctx (.ctx 0 0)).trap.vec.getLsbD 63 = true ∧
    ((pendingIn Ctx.launch).ctx (.ctx 0 0)).pending = some request ∧ ((pendingIn Ctx.launch).ctx (.ctx 0 0)).trap.vec.getLsbD 63 = false ∧
    ((pendingIn { withVector with trap := { withVector.trap with handling := true } }).ctx (.ctx 0 0)).trap.handling = true := by decide +kernel
/-- A store of 8 bytes through handle 2, or an atomic into ring 3, that was refused. -/
def kept0 (ring : Option (Fin 16)) : Kept := ⟨match ring with | some _ => .atomic 8 .add 1 | none => .store, 2, 0, List.replicate 8 0, ring, .rlx, .tile⟩
/-- Context 0 at the end of a bundle, with a valid vector, outside a handler or in one, something kept or nothing. -/
def ending (tl : Tail) (handling : Bool) (keep : Option Kept) (h : Handle) : State :=
  State.reset.modCtx (.ctx 0 0) fun _ =>
    { (withVector.modBank fun b => { b with h := b.h.set 2 h, q := b.q.set 3 { Ring.launch with lsize := 1, esz := 3 } }) with
      tail := some tl, trap := { withVector.trap with handling := handling, keep := keep } }
theorem meets_TrapDelivery_refused :
    let tl := { plainEnd with refused := some (kept0 none) }
    let s := ending tl false (some (kept0 none)) Handle.launch
    let k := s.ctx (.ctx 0 0)
    k.tail = some tl ∧ tl.refused = some (kept0 none) ∧ tl.soft = none ∧ tl.ends = false ∧ tl.eret = .none ∧ tl.waits = [] ∧ k.flight = [] ∧
    k.trap.handling = false ∧ k.trap.vec.getLsbD 63 = true := by decide +kernel
theorem meets_TrapDelivery_checks : ∀ i ∈ ([.winset g0 0 r1 r2, .ringset g0 0 r1 1 3, .radv g0 0 r1 1, .rrel g0 0 r1 1, .mst g0 .i64 r1 r2 2 0, .mstv g0 r1 r2 2 0,
      .amo g0 .i64 3 r1 r2 .add .rlx .tile 2, .amocas g0 .i64 3 r1 r2 r3 .rlx .tile 2, .disc g0 r1 r2 2, .mld g0 .i64 (.ring 3) r1 2 true 0, .mldv g0 3 r1 2 0,
      .mgath g0 .i32 3 r1 r2 1] : List Instr),
    (∀ o ∈ i.operands, popCheckOf issuing.bank o = none) ∧ issuing.popError 0 = none := by decide +kernel
/-- Lane 0 active, through handle 2, which is valid; MGATH's lanes are 0 elsewhere, so active too, through handle 0, which is not. -/
theorem meets_TrapDelivery_lanes :
    let H : Handle := { Handle.launch with valid := true, write := true }
    (0x10000000 : VReg).getLsbD (32 * 0 + 31) = false ∧ 0x10000000 / 2 ^ 27 % 16 = 2 ∧ H.valid = true ∧ H.read = false ∧ Handle.launch.valid = false ∧
    (1 : Int) % (8 : Nat) ≠ 0 := by decide +kernel
theorem meets_EretRestores :
    let s := issuingAs { withVector with trap := { withVector.trap with handling := true } }
    s.issue.agent = .ctx 0 0 ∧ AllPerform [(.eret g0)] s ∧ (s.ctx (.ctx 0 0)).tail = some s.openTail ∧
    (s.ctx (.ctx 0 0)).flight = [] ∧ (s.ctx (.ctx 0 0)).trap.keep = none := by decide +kernel
/-- A page that a store or an atomic may write. -/
def unbackedPage : Handle := { Handle.launch with valid := true, read := true, write := true, unb := true }
theorem meets_EretRestores_kept : ∀ ring ∈ [none, some (3 : Fin 16)],
    let tl := { plainEnd with eret := .begun }
    let s := ending tl true (some (kept0 ring)) unbackedPage
    let k := s.ctx (.ctx 0 0)
    k.tail = some tl ∧ tl.eret = .begun ∧ tl.waits = [] ∧ k.flight = [] ∧ k.trap.keep = some (kept0 ring) ∧
    (k.bank.handle (kept0 ring).h).pending = false ∧ (kept0 ring).check k.bank = none ∧ 1 ≤ (k.bank.ring 3).room ∧ (s.tile 0).loads < 64 := by
  decide +kernel
/-- Admitted and refused again, and nothing kept beside a store of ERET's own bundle that was refused, or not. -/
theorem meets_EretRestores_ends : ∀ x ∈ [(EretStage.sent 4, some (kept0 none), none, none), (.again, some (kept0 none), none, some (kept0 none)),
      (.begun, none, some (kept0 none), some (kept0 none)), (.begun, none, none, none)],
    let tl := { plainEnd with eret := x.1, refused := x.2.2.1, waits := [.alloc 4] }
    let s := ending tl true x.2.1 unbackedPage
    let k := s.ctx (.ctx 0 0)
    k.tail = some tl ∧ tl.eret ≠ .none ∧ (tl.eret = .begun → k.trap.keep = none) ∧ k.flight = [] ∧ (∀ w ∈ tl.waits, s.waitStands 0 0 w = false) ∧
    (if tl.eret = .again ∧ k.trap.keep.isSome = true then k.trap.keep else tl.refused) = x.2.2.2 ∧ k.trap.vec.getLsbD 63 = true := by decide +kernel

/-- A graph of one node. -/
def oneNode : Prompter := { Prompter.empty with nodes := [⟨0, 0, 0, [], .pending, none, false, false⟩] }
theorem meets_MessagesAndRequests :
    let s := issuing.modTile 0 fun T => { T with pr := oneNode }
    s.issue.agent = .ctx 0 0 ∧ (s.X 1 r1).toNat < (s.tile 0).pr.nodes.length ∧ (issuing.tile 0).pr.nodes.length ≤ (issuing.X 1 r1).toNat ∧
    issuing.issue.agent = .ctx 0 0 ∧ AllPerform [(.token g0 r1 r2)] issuing ∧
    AllPerform [.condw g0 r1 63 .clr, .token g0 r1 r2, .sysc g0 5, .rsv g0 1 r1 7, .unrsv g0 1 r1 0, .flkadd g0 r1 3 1, .flkdel g0 r1 3] s := by
  decide +kernel
/-- A TOKEN outside the graph while a result is in flight. -/
theorem meets_MessagesAndRequests_owed :
    let s := issuingAs { Ctx.launch with flight := [⟨.x 0 5, 0, .scalar, 3, false, none⟩] }
    s.issue.agent = .ctx 0 0 ∧ AllPerform [(.token g0 r1 r2)] s ∧ (s.tile 0).pr.nodes.length ≤ (s.X 1 r1).toNat ∧ (s.ctx (.ctx 0 0)).flight ≠ [] := by
  decide +kernel
theorem meets_CsrReadsAndWrites : issuing.issue.agent = .ctx 0 0 ∧
    AllPerform [.csrrd g0 1 0x000, .csrwr g0 1 r1 0x200, .csrset g0 1 r1 0x102, .csrclr g0 1 r1 0x008] issuing := by decide +kernel
def landing (w : RegWrite) (u : FpUnit) : InFlight := ⟨w, 3, u, 3, false, none⟩
theorem meets_ResultsLandWhole : ∀ r ∈ [landing (.x 0 5) .scalar, landing (.x 31 5) .scalar, landing (.p 0 false) .vector, landing (.p 8 true) .matrix,
      landing (.v 31 7) .vector],
    let s := State.reset.modCtx (.ctx 0 0) fun k => { k with flight := [r] }
    (s.ctx (.ctx 0 0)).flight[0]? = some r ∧ r.access = none := by decide +kernel

/-- Tile 0 about to fetch the bundle of one ADD. -/
def fetching : State := State.reset.withFetchWord 128 (0x0100041080000000 * 2 ^ 64 + 0xB702000000000000)
def addBundle : Bundle := ⟨0, false, 0, [(.i0, .add g0 .i64 1 r1 r2)]⟩
theorem fetches_add : fetch false (storeAt (fetching.tile 0).mem.store) 16383 ((fetching.tile 0).ctx 0).pc = .ok addBundle :=
  ok_of (by decide +kernel)
/-- Nothing stands before the next fetch of tile 0, whose context 0 runs. -/
abbrev ClearToFetch (s : State) : Prop :=
  let T := s.tile 0
  T.run = some 0 ∧ T.gap = 0 ∧ T.stopReq = false ∧ (∀ k, (T.ctx k).sel ≠ .blocked ∧ (T.ctx k).fault = none ∧ (T.ctx k).owed = []) ∧
  (T.ctx 0).sel = .ready ∧ (T.ctx 0).tail = none ∧ (T.ctx 0).pending = none ∧ (T.ctx 0).records = []
/-- The cycle of tile 0 before its bundle is judged, and the bundle opened. -/
def cycled (s : State) : State :=
  State.modTile ((s.modTile 0 fun T => { T with sceneCycle := T.sceneCycle + 1 }).inject 0) 0 fun T =>
    { T with cycle := T.cycle + 1, ctxs := T.ctxs.map (·.landDue (T.cycle + 1)) }
def opened (s : State) (b : Bundle) : State × Latch := (cycled s).openIssue (.ctx 0 0) b.hdr b.n b.syls
/-- Tile 0 about to fetch a bundle of one syllable, in the slots of a mask. -/
def fetchingWith (k : Ctx) (mask : Nat) (i : Instr) : State :=
  (State.reset.modCtx (.ctx 0 0) fun _ => k).withFetchWord 128 (i.encode * 2 ^ 64 + 0xB7 * 2 ^ 56 + mask * 2 ^ 48)
/-- A context with a valid vector that holds handle 2 in an unbacked page, and with an answer of its home slice, or none. -/
def storing (ask : Option Ask) : Ctx := { withVector.modBank (fun b => { b with h := b.h.set 2 { Handle.launch with valid := true, write := true, unb := true } }) with ask := ask }
def storeBundle : Bundle := ⟨0, false, 0, [(.a, .mst g0 .i64 r1 r2 2 0)]⟩
theorem fetches_store : fetch false (storeAt ((fetchingWith (storing none) 8 (.mst g0 .i64 r1 r2 2 0)).tile 0).mem.store) 16383 0 = .ok storeBundle :=
  ok_of (by decide +kernel)
theorem meets_FetchIssuesTheDecodedBundle :
    ClearToFetch fetching ∧ (opened fetching addBundle).1.bundleWaits (opened fetching addBundle).2 = [] ∧
    (opened fetching addBundle).1.bundleCheck addBundle.syls = none ∧ (opened fetching addBundle).1.allocation = none ∧
    fetching.dev.off = false ∧ fetching.agenda = [] ∧ fetching.focus = .tile 0 := by decide +kernel
/-- A store in an unbacked page, not answered yet, and admitted. -/
theorem meets_FetchIssuesTheDecodedBundle_asks :
    let k : Kept := ⟨.store, 2, 0, List.replicate 8 0, none, .rlx, .tile⟩
    ∀ a ∈ [none, some (⟨4, 0, k, some true⟩ : Ask)],
      let s := fetchingWith (storing a) 8 (.mst g0 .i64 r1 r2 2 0)
      let o := opened s storeBundle
      ClearToFetch s ∧ o.1.bundleWaits o.2 = [] ∧ o.1.bundleCheck storeBundle.syls = none ∧ o.1.allocation = some (k, a.bind (·.answer)) := by decide +kernel
/-- The same store through a handle that is cleared: its check names trap 0x05. -/
theorem meets_FetchIssuesTheDecodedBundle_check :
    let s := fetchingWith withVector 8 (.mst g0 .i64 r1 r2 2 0)
    let o := opened s storeBundle
    let u : State := { o.1 with issue := { o.1.issue with slot := Slot.a.num } }
    ClearToFetch s ∧ o.1.bundleWaits o.2 = [] ∧ storeBundle.syls = [] ++ (.a, .mst g0 .i64 r1 r2 2 0) :: [] ∧ u.guardTrue (.mst g0 .i64 r1 r2 2 0) = true ∧
    checkOf u 3 (.mst g0 .i64 r1 r2 2 0) = some (.trap 0x05 (some 2) 0) ∧ ((cycled s).ctx (.ctx 0 0)).flight = [] ∧
    ((cycled s).ctx (.ctx 0 0)).trap.handling = false ∧ ((cycled s).ctx (.ctx 0 0)).trap.vec.getLsbD 63 = true := by decide +kernel
/-- Tile 0 about to fetch where no header stands: an empty store, and an index beyond it. -/
def fetchingNothing (pc : Nat) : State :=
  (State.reset.modCtx (.ctx 0 0) fun _ => { withVector with sel := .ready, pc := pc }).modTile 0 fun T => { T with run := some 0 }
theorem meets_FetchIssuesTheDecodedBundle_target : ∀ pc ∈ [0, 16384],
    let s := fetchingNothing pc
    let k := (s.tile 0).ctx 0
    ClearToFetch s ∧ k.flight = [] ∧ k.trap.handling = false ∧ k.trap.vec.getLsbD 63 = true ∧
    (16383 < k.pc ∨ fld (storeAt (s.tile 0).mem.store k.pc) 56 8 ≠ 0xB7) := by decide +kernel
/-- The error of a fetch that answers one. -/
theorem error_of {x : Except FetchError Bundle} {e : FetchError}
    (h : (match x with | .ok _ => false | .error c => decide (c = e)) = true) : x = .error e := by
  cases x with
  | ok c => cases h
  | error c => exact congrArg _ (of_decide_eq_true h)
/-- A bad header, a syllable that decodes to nothing, and two syllables with one destination. -/
theorem meets_FetchIssuesTheDecodedBundle_errors :
    fetch false (fun k => if k = 0 then 0xB701000000000001 else 0) 16383 0 = .error .header ∧
    fetch false (fun k => if k = 0 then 0xB701000000000000 else 0) 16383 0 = .error (.syllable .k 0) ∧
    (let st : Nat → Nat := fun k => if k = 0 then 0xB706000000000000 else 0x0100041080000000
     fld (st 0) 56 8 = 0xB7 ∧ fld (st 0) 0 44 = 0 ∧ fld (st 0) 48 8 ≠ 0 ∧ 0 + (maskSlots (fld (st 0) 48 8)).length ≤ 16383 ∧
     Instr.dests (.add g0 .i64 1 r1 r2) ≠ []) :=
  ⟨error_of (by decide +kernel), error_of (by decide +kernel), by decide +kernel⟩

theorem meets_VectorIntegerArithmetic : Ty.isInt .i8 = true ∧
    AllPerform [.vadd g0 .i8 1 r1 r2 .rne true true, .vsub g0 .i8 1 r1 r2 .rne false false, .vmul g0 .i8 1 r1 r2 .rne true false,
      .vfma g0 .i8 1 r1 r2 r3 .rne true false, .vfms g0 .i8 1 r1 r2 r3 .rne false false, .vmulh g0 .i8 1 r1 r2 true, .vmin g0 .i8 1 r1 r2 true,
      .vmax g0 .i8 1 r1 r2 false, .vclamp g0 .i8 1 r1 r2 r3 false, .vabs g0 .i8 1 r1 true, .vneg g0 .i8 1 r1 false] issuing := by decide +kernel
theorem meets_VectorFloatLanes : Ty.isInt .bf16 = false ∧
    AllPerform [.vadd g0 .bf16 1 r1 r2 .rz false false, .vsub g0 .bf16 1 r1 r2 .rz false false, .vmul g0 .bf16 1 r1 r2 .rz false false,
      .vfma g0 .bf16 1 r1 r2 r3 .rz false false, .vfms g0 .bf16 1 r1 r2 r3 .rz false false, .vabs g0 .bf16 1 r1 false, .vneg g0 .bf16 1 r1 false,
      .vmin g0 .bf16 1 r1 r2 false, .vmax g0 .bf16 1 r1 r2 false, .vclamp g0 .bf16 1 r1 r2 r3 false, .vrcp g0 .bf16 1 r1 .rne true,
      .vrsq g0 .bf16 1 r1 .rne false, .vexp2 g0 .bf16 1 r1 .rne true, .vlog2 g0 .bf16 1 r1 .rne false] issuing := by decide +kernel
/-- Codes of FP16 that meet each value clause: 1, -1, 0, 2^-1, infinity, a NaN, and 3 for a value beside the powers. -/
theorem meets_VectorFloatLanes_values :
    let x : Nat → Val := fun c => fArg .f16 (BitVec.ofNat 64 c)
    ((x 0x3C00).isFin = true ∧ (x 0x3C00).rat = 1) ∧ ((x 0xBC00).isFin = true ∧ (x 0xBC00).rat < 0) ∧ ((x 0).isFin = true ∧ (x 0).rat = 0) ∧
    ((x 0x3800).isFin = true ∧ 0 < (x 0x3800).rat ∧ (x 0x3800).rat = 2 ^ (-1 : Int)) ∧ (x 0x7C00).isInf = true ∧ (x 0x7E00).isNan = true ∧
    (x 0x3C00).rat = ((1 : Int) : Rat) ∧ (x 0x3C00).rat = 2 ^ (0 : Int) ∧ (x 0x4200).isFin = true ∧ (x 0x4200).rat = 3 ∧
    (issuing.X 1 r1 = BitVec.ofNat 64 0 ∧ AllPerform [.fadd g0 .f16 1 r1 r2 .rne, .fsub g0 .f16 1 r1 r2 .rne, .fmul g0 .f16 1 r1 r2 .rne,
      .ffma g0 .f16 1 r1 r2 r3 .rne] issuing) := by decide +kernel
theorem meets_VectorLogicShiftsAndMasks : Ty.isInt .i16 = true ∧ Ty.isInt .bf16 = false ∧ VCond.c4 ≠ .c5 ∧ AllPerform [.vcmp g0 .bf16 1 r1 r2 .c4] issuing ∧
    AllPerform [.vand g0 .i16 1 r1 r2, .vor g0 .i16 1 r1 r2, .vxor g0 .i16 1 r1 r2, .vshl g0 .i16 1 r1 (.lanes r2), .vshr g0 .i16 1 r1 (.lanes r2),
      .vsar g0 .i16 1 r1 (.lanes r2), .vshl g0 .i16 1 r1 (.imm 15), .vshr g0 .i16 1 r1 (.imm 0), .vsar g0 .i16 1 r1 (.imm 15),
      .vcmp g0 .i16 1 r1 r2 .c5, .vsel g0 .i16 1 r1 r2 r3, .vmovp g0 .i16 (.any 1 r1), .vmovp g0 .i16 (.all 1 r1), .vmovp g0 .i16 (.sp 1 2),
      .vpcnt g0 .i16 1 r1] issuing := by decide +kernel
theorem meets_VectorConversions : Ty.f32 ≠ .i64 ∧ Ty.i8 ≠ .i64 ∧ Ty.isInt .f32 = false ∧ MFmt.mx8e4.scaled = true ∧ MFmt.u4.scaled = false ∧
    Ty.isInt .i8 = true ∧ MFmt.u4.isInt = true ∧ (3 + 1) * min (2048 / 32) (2048 / 8) ≤ max (2048 / 32) (2048 / 8) ∧ (3 + 1) * (2048 / 32) ≤ 2048 / 8 ∧
    AllPerform [.vcvt g0 (BitVec.ofNat 3 Ty.f32.code) 1 r1 .rne false false (BitVec.ofNat 3 Ty.i8.code) 0 3,
      .vcvt g0 7 1 r1 .rne false false (BitVec.ofNat 3 Ty.i8.code) (BitVec.ofNat 5 MFmt.u4.code) 1,
      .vcvt g0 (BitVec.ofNat 3 Ty.i8.code) 1 r1 .rne true false 7 (BitVec.ofNat 5 MFmt.u4.code) 1, .vquant g0 .f32 1 r1 2 .rne .mx8e4 3,
      .vdeq g0 .f32 1 r1 r2 .rne .mx8e4 0] issuing := by decide +kernel
theorem meets_VectorReductions : Ty.isInt .i8 = true ∧
    AllPerform [.vrsum g0 .i8 1 r1 .rne false true, .vrmax g0 .i8 1 r1 false, .vrmin g0 .i8 1 r1 true, .vscan g0 .i8 1 r1 .rne false false .add,
      .vscan g0 .i8 1 r1 .rne false true .max, .vscan g0 .i8 1 r1 .rne false false .min, .vrsum g0 .i8 1 r1 .rne true true,
      .vscan g0 .i8 1 r1 .rne true false .add] issuing ∧ Ty.isInt .f16 = false ∧
    AllPerform [.vrsum g0 .f16 1 r1 .rne false false, .vrmax g0 .f16 1 r1 false, .vrmin g0 .f16 1 r1 false, .vscan g0 .f16 1 r1 .rne false false .add,
      .vscan g0 .f16 1 r1 .rne false false .max, .vscan g0 .f16 1 r1 .rne false false .min] issuing := by decide +kernel
/-- Lane 0 a NaN; an infinity of each sign; all lanes zero, so all finite with sum 0; lane 0 one, so a sum that is not 0. -/
theorem meets_VectorReductions_values :
    let num : VReg → Nat → Val := fun v j => fp16.decode (v.extractLsb' (j * 16) 16).toNat
    (num 0x7E00 0).isNan = true ∧ num 0xFC007C00 0 = .inf false ∧ num 0xFC007C00 1 = .inf true ∧
    (∀ j < 128, (num 0 j).isFin = true) ∧ (num 0x3C00 0).rat ≠ 0 ∧ (∀ j < 128, (num 0x3C00 j).isNan = false) ∧
    (∀ j < 128, (num (BitVec.allOnes 2048) j).isNan = true) := by decide +kernel
theorem meets_LaneMoves : Ty.isInt .f32 = false ∧
    AllPerform [.vperm g0 .i8 1 r1 r2, .vsplat g0 .f32 1 r1, .vins g0 .f32 1 r1 r2, .viota g0 .i16 1 r1 r2, .vext g0 .i8 1 r1 r2 false] issuing := by
  decide +kernel
theorem meets_PartitionOfLanes : Ty.i8 ≠ .i32 ∧ AllPerform [.vpart g0 .i32 1 r1 r2 3 true 15, .vpart g0 .i32 1 r1 r2 3 false 0] issuing := by decide +kernel
/-- The compressed vector of zero lanes is zero: both clauses meet at the issuing state itself. -/
theorem meets_CompressAndExpand : AllPerform [.vcomp g0 .i32 1 r1 r2 3, .vexpd g0 .i32 1 r1 r2] issuing ∧ issuing.V 1 r1 = 0 ∧ issuing.V 2 r2 = 0 := by
  decide +kernel

theorem meets_ScratchLoads : (Ty.i8 = .i32 ∨ Ty.i8 = .i16 ∨ Ty.i8 = .i8) ∧
    AllPerform [.lds g0 .i8 1 r1 0 true 0xFFFFFFFF, .ldv g0 1 r1 7 0, .ldvs g0 .i8 1 r1 r2 0, .gath g0 1 r1 r2 0] issuing := by decide +kernel
theorem meets_ScratchStores : Sparse.wf 0 (issuing.tile issuing.homeTile).mem.spad = true ∧
    AllPerform [.sts g0 .i64 r3 r1 0 0, .stv g0 r3 r1 7 4, .scat g0 r3 r1 r2 0] issuing := by decide +kernel

/-- Context 0 of tile 0 in the middle of a bundle, with x1 and x2 as given. -/
def withX (a b : Word) : State :=
  { issuing with issue := { issuing.issue with ctx := Ctx.launch.modBank fun k => { k with x := (k.x.set 1 a).set 2 b } } }
theorem meets_WindowsRingsAndHandles :
    let s := withX 0xFFFFF 0x100000
    s.issue.agent = .ctx 0 0 ∧ (s.X 1 r1).toNat ≤ 0xFFFFF ∧ (s.X 2 r2).toNat ≤ 0x100000 ∧
    AllPerform [.winset g0 7 r1 r2, .ringset g0 15 r1 16 3, .radv g0 0 r1 1, .rrel g0 0 r1 1, .xlt g0 3 r1, .hrel g0 15, .hinfo g0 1 0 false,
      .hinfo g0 1 0 true] s := by decide +kernel

/-- A valid handle on device frame 0; the bundle in issue sees it. -/
def deviceHandle (unb : Bool) : Handle := { Handle.launch with valid := true, read := true, write := true, unb := unb }
def withHandle (unb : Bool) : State :=
  let k := Ctx.launch.modBank fun b => { b with h := b.h.set 2 (deviceHandle unb) }
  { issuingAs k with issue := { issuing.issue with ctx := k } }
theorem meets_LoadsThroughHandles :
    (withHandle false).issue.agent = .ctx 0 0 ∧ (Ty.isInt .i64 = true ∨ true = false) ∧ (Ty.isInt .f32 = true ∨ false = false) ∧
    (0 : Int) ≤ ((withHandle false).X 1 r1).toNat + (0 : BitVec 31).toInt ∧
    (withHandle false).issue.ctx.bank.h[(2 : Fin 16)].valid = true ∧ (withHandle false).issue.ctx.bank.h[(1 : Fin 16)].valid = false ∧
    AllPerform [.mld g0 .i64 (.ring 3) r1 2 true 0, .mldv g0 3 r1 1 0, .sqld g0 1 r1 15 2] (withHandle false) := by decide +kernel
theorem meets_GatherAndScalePush :
    (withHandle false).issue.agent = .ctx 0 0 ∧ AllPerform [.mgath g0 .i32 0 r1 r2 3, .sqpush g0 1 r1 7] (withHandle false) := by decide +kernel
theorem meets_StoresAndAtomics : ∀ unb ∈ [false, true],
    (withHandle unb).issue.agent = .ctx 0 0 ∧ (withHandle unb).issue.ctx.bank.h[(2 : Fin 16)].valid = true ∧
    (0 : Int) ≤ ((withHandle unb).X 1 r1).toNat + (0 : BitVec 31).toInt ∧
    AllPerform [.mst g0 .i64 r1 r2 2 0, .mstv g0 r1 r2 2 0, .amo g0 .i32 3 r1 r2 .swap .acqrel .device 2,
      .amocas g0 .i64 3 r1 r2 r3 .rlx .tile 2, .disc g0 r1 r2 2] (withHandle unb) := by decide +kernel
/-- A store or atomic that its home slice has refused, beside no ERET and beside one; DISC of no bytes, and of one line. -/
theorem meets_StoresAndAtomics_refused : ∀ e ∈ [EretStage.none, .begun],
    let s := (withHandle true).modTail fun tl => { tl with refused := some (kept0 none), eret := e }
    (s.ctx (.ctx 0 0)).tail.bind (fun tl => tl.refused) = some (kept0 none) ∧ ((s.ctx (.ctx 0 0)).tail.any fun tl => tl.eret = .none) = (e == .none) ∧
    AllPerform [.mst g0 .i64 r1 r2 2 0, .amo g0 .i32 3 r1 r2 .swap .acqrel .device 2] s := by decide +kernel
theorem meets_StoresAndAtomics_admitted : ((withHandle true).ctx (.ctx 0 0)).tail.bind (fun tl => tl.refused) = none ∧
    (withHandle true).X 2 r2 = 0 ∧ (withX 0 128).X 2 r2 ≠ 0 ∧ AllPerform [(.disc g0 r1 r2 2)] (withX 0 128) := by decide +kernel
def droverIssuing : State := { issuing with issue := { issuing.issue with agent := .drover 5 } }
theorem meets_DroverAccesses :
    droverIssuing.issue.agent = .drover 5 ∧ Sparse.wf 0 (droverIssuing.drover 5).mem = true ∧
    AllPerform [.mst g0 .i64 r1 r2 0 0, .mld g0 .i8 (.xreg 1) r1 0 true 0] droverIssuing ∧ Ty.i64.width = 8 ∧
    2 ^ 26 - 8 + 8 ≤ 2 ^ 26 ∧ (2 ^ 26 - 8) % 8 + 8 ≤ 8 ∧
    (∀ first : Nat, ∃ p, ∀ j < 8, p + j < first ∨ first + 2 ^ 26 ≤ p + j) := by
  refine ⟨by decide +kernel, by decide +kernel, by decide +kernel, rfl, by decide, by decide, fun first => ⟨first + 2 ^ 26, fun j _ => .inr ?_⟩⟩
  omega
/-- An address of the registers, wherever the map has them, is the sum that an x register names. -/
theorem meets_DroverAccesses_registers : ∃ x : Word, (x + (0 : BitVec 31).signExtend 64).toNat = Config.droverRegs.toNat + 0 :=
  ⟨Config.droverRegs, by simp⟩
/-- A hold that stays as it is, one that is set, one cleared beside another, and the last one cleared. -/
theorem meets_DroverAccesses_hold : ∀ x ∈ [(false, false), (true, true), (true, false)],
    let s : State := { State.reset with mem := { MemSys.reset with doms := (MemSys.reset.doms.set 0 { Domain.reset with hold := x.1 }).set 3 { Domain.reset with hold := x.2 } } }
    let O := s.mem.doms[(0 : Fin 8)]
    let free := s.mem.doms.set 0 { O with hold := false, before := [] }
    O.hold = x.1 ∧ (x.2 = true → (free[(3 : Fin 8)]).hold = true) ∧ (x.2 = false → ∀ k : Fin 8, (free[k]).hold = false) := by decide +kernel
/-- Wherever the map has the three windows, some bytes lie outside them all. -/
theorem meets_DroverAccesses_outside (a b c : Nat) : ∃ p, ∀ j < 8,
    ¬ (a ≤ p + j ∧ p + j < a + 2 ^ 26) ∧ ¬ (b ≤ p + j ∧ p + j < b + 8 * 384) ∧ ¬ (c ≤ p + j ∧ p + j < c + 0x200) := by
  refine Classical.byContradiction fun h => ?_
  have g : ∀ p, ∃ j < 8, (a ≤ p + j ∧ p + j < a + 2 ^ 26) ∨ (b ≤ p + j ∧ p + j < b + 8 * 384) ∨ (c ≤ p + j ∧ p + j < c + 0x200) := fun p => by
    refine Classical.byContradiction fun hp => ?_
    refine h ⟨p, fun j hj => ⟨fun x => hp ⟨j, hj, .inl x⟩, fun x => hp ⟨j, hj, .inr (.inl x)⟩, fun x => hp ⟨j, hj, .inr (.inr x)⟩⟩⟩
  clear h
  obtain ⟨i, hi, h0⟩ := g 0
  obtain ⟨j, hj, h1⟩ := g (2 ^ 28)
  obtain ⟨k, hk, h2⟩ := g (2 ^ 29)
  obtain ⟨l, hl, h3⟩ := g (2 ^ 30)
  clear g
  rcases h0 with h0 | h0 | h0 <;> rcases h1 with h1 | h1 | h1 <;> omega
/-- Where the windows lie apart, the first word of each is of it alone. -/
theorem meets_DroverAccesses_windows (a b c : Nat) (h : a + 2 ^ 26 ≤ b ∧ b + 8 * 384 ≤ c) :
    (a ≤ a ∧ a < a + 2 ^ 26) ∧ (¬ (a ≤ b ∧ b < a + 2 ^ 26) ∧ b ≤ b ∧ b < b + 8 * 384) ∧
    ¬ (a ≤ c ∧ c < a + 2 ^ 26) ∧ ¬ (b ≤ c ∧ c < b + 8 * 384) ∧ c ≤ c ∧ c < c + 0x200 := by omega

/-- An access of context 0 with one part of 8 bytes at a physical address. -/
def access (k : AccKind) (pa : Nat) (dest : AccDest) (done : Bool) : Access :=
  ⟨4, 0, k, 0, 2, 0, false, true, .rlx, .tile, [⟨pa, 0, 8, done, false, 0, false⟩], List.replicate 8 0, dest, false, false⟩
def onItsWay (l : List Access) : State := State.reset.modTile 0 fun T => { T with accs := l }
theorem meets_RemoteAccessesAreServed_perform :
    ∀ k ∈ [AccKind.load 8 true, .loadV, .gather 4 [], .scales false 1, .store, .atomic 8 .swap (2 ^ 64 - 1), .atomic 8 .add 0, .cas 8 (2 ^ 64 - 1) 1, .discard,
        .counterRead 383 0 1],
      let a := access k 0x1000 .none false
      let T := (onItsWay [a]).tile 0
      T.accs.find? (fun b => b.id = 4) = some a ∧ a.pieces[0]? = some ⟨0x1000, 0, 8, false, false, 0, false⟩ ∧ a.admitted = true ∧
      (∀ p ∈ a.pieces, T.mayPerform a p = true) ∧ (onItsWay [a]).mem.eff 0x1000 = 0x1000 ∧ (onItsWay [a]).mem.place 0x1000 ≠ .host ∧
      (2 ^ 64 - 1 : Nat) < 2 ^ (8 * 8) ∧ 383 < 384 := by decide +kernel
/-- Two parts in one aligned unit of 8 bytes, of which the first is performed. -/
theorem meets_RemoteAccessesAreServed_unit :
    let a := { access .store 0x1000 .none true with pieces := [⟨0x1000, 0, 4, true, false, 0, false⟩, ⟨0x1004, 4, 4, false, false, 0, false⟩, ⟨0x1008, 8, 4, false, false, 0, false⟩] }
    ((List.range a.pieces.length).filter fun j => match a.pieces[j]? with | some x => !x.done && x.pa / 8 == 0x1004 / 8 | none => false) = [1] := by decide +kernel
/-- A host line whose first half is held in a state. -/
def hostHalf (st : Mesi) : HostHalf := ⟨2 ^ 41, st, List.replicate 64 0, 0, 0, false⟩
/-- A store to a half that is not held, one that is held shared, and one that is held exclusive; the first two ask for it,
the request standing already or not. -/
theorem meets_RemoteAccessesAreServed_host : ∀ l ∈ [[], [hostHalf .shared], [hostHalf .exclusive]],
    let a := access .store (2 ^ 47) .none false
    let s := onItsWay [a]
    let u := { s with mem := { s.mem with halves := l } }
    u.mem.place (u.mem.eff (2 ^ 47)) = .host ∧ a.kind = .store ∧ (u.mem.evictOthers (2 ^ 47) a.owner) = (u.mem, []) ∧
    u.mem.half (2 ^ 47) = l.head? ∧ (∀ x ∈ u.mem.hreqs, x.half = 2 ^ 47 / 64 → x.kind ≠ .rdOwn) ∧
    (∃ x ∈ ({ u.mem with hreqs := [⟨2 ^ 41, .rdOwn, 0, 0, [], false⟩] } : MemSys).hreqs, x.half = 2 ^ 47 / 64 ∧ x.kind = .rdOwn) ∧
    (u.tile 0).mayPerform a ⟨2 ^ 47, 0, 8, false, false, 0, false⟩ = true ∧ (2 ^ 47) % 64 = 0 := by decide +kernel
/-- A DISC of a line of a late frame, which stands beside the cache or does not; and a release at system scope whose owner owes a half. -/
theorem meets_RemoteAccessesAreServed_late : ∀ b ∈ [false, true],
    let m := { MemSys.reset with late := [(3, 0x70000)], behind := if b then [(0x70000 / 128, List.replicate 128 0)] else [] }
    let a := access .discard (2 ^ 39 + 3 * 2 ^ 16) .none false
    let s := { onItsWay [a] with mem := m }
    s.mem.eff (2 ^ 39 + 3 * 2 ^ 16) = 0x70000 ∧ (s.mem.behind.any fun x => x.1 == 0x70000 / 128) = b ∧ (s.tile 0).accs.find? (fun x => x.id = 4) = some a := by
  decide +kernel
theorem meets_RemoteAccessesAreServed_release :
    let a := { access (.atomic 8 .add 0) 0x1000 .none false with ord := .rel, sc := .system }
    let s := { onItsWay [a] with mem := { MemSys.reset with halves := [{ hostHalf .modified with wb := true }] } }
    (s.tile 0).accs.find? (fun x => x.id = 4) = some a ∧ s.mem.owed a.owner = [{ hostHalf .modified with wb := true }] ∧ (s.tile 0).mayPerform a ⟨0x1000, 0, 8, false, false, 0, false⟩ = true := by
  decide +kernel
/-- A domain that is held: what was asked of it before is served, what was asked since is parked; a first-touch page is of no domain, and
a counter in none. -/
theorem meets_RemoteAccessesAreServed_parked : ∀ x ∈ [(true, [], false, AccKind.store, true), (true, [((0 : TileId), 4)], false, .store, false), (false, [], false, .store, false),
      (true, [], true, .store, false), (true, [], false, .counterRead 383 0 1, false)],
    let p : Piece := ⟨0x1000, 0, 8, false, false, 0, x.2.2.1⟩
    let a := { access x.2.2.2.1 0x1000 .none false with pieces := [p] }
    let s := { onItsWay [a] with mem := { MemSys.reset with doms := MemSys.reset.doms.set 0 { Domain.reset with hold := x.1, before := x.2.1 } } }
    (s.tile 0).accs.find? (fun b => b.id = 4) = some a ∧ a.pieces[0]? = some p ∧ p.done = false ∧ a.admitted = true ∧
    ((match a.kind with | .counterRead _ _ _ => false | _ => true) && !p.first && (s.mem.doms[p.dom]).hold && !(s.mem.doms[p.dom]).before.contains (0, 4)) = x.2.2.2.2 := by
  decide +kernel
/-- A ring of two entries of 256 bytes. -/
def ring512 : Ring := { Ring.launch with lsize := 1, esz := 8, base := 0x200, res := 1 }
def vectorLoad (id : Nat) (done : Bool) : Access :=
  ⟨id, 0, .loadV, 0, 2, 0, false, true, .rlx, .tile, [⟨0x1000, 0, 8, done, false, 0, false⟩], List.replicate 256 5, .ring 3 0 1, false, false⟩
def ringLoads (l : List Access) : State := (onItsWay l).modCtx (.ctx 0 0) fun k => k.modBank fun b => { b with q := b.q.set 3 ring512 }
theorem meets_RemoteAccessesAreServed_lands :
    let a := vectorLoad 4 true
    let s := ringLoads [a]
    let T := s.tile 0
    let r := (T.ctx 0).bank.q[(3 : Fin 16)]
    T.accs.find? (fun b => b.id = 4) = some a ∧ a.dest = .ring 3 0 1 ∧ a.landed = false ∧ a.admitted = true ∧ (∀ x ∈ a.pieces, x.done = true) ∧
    a.kind = .loadV ∧ a.data.length = 256 ∧ Sparse.wf 0 T.mem.spad = true ∧
    256 ≤ 2 ^ r.lsize.toNat * 2 ^ r.esz.toNat ∧ 2 ^ r.lsize.toNat * 2 ^ r.esz.toNat ≤ 2 ^ 20 ∧
    r.base.toNat % (2 ^ r.lsize.toNat * 2 ^ r.esz.toNat) = 0 ∧ (∀ b ∈ T.accs, b.id = 4 → b = a) ∧ (∀ b ∈ T.accs, b.id = 4) := by decide +kernel
/-- Whether bytes are the ones that land for an access (R187). -/
def landsAs (a : Access) (L : List Byte) : Bool :=
  let low : Nat → Bool := fun w => decide (w ≤ 8) && L.length == 8 && (List.range 8).all fun j => L.getD j 0 == if j < w then a.data.getD j 0 else 0
  match a.kind with
  | .load w sign => decide (1 ≤ w) && decide (w ≤ 8) && L.length == 8 && (List.range 8).all fun j => L.getD j 0 ==
    if j < w then a.data.getD j 0 else if sign && (a.data.getD (w - 1) 0).getLsbD 7 then 0xFF else 0
  | .atomic w _ _ => low w
  | .cas w _ _ => low w
  | .gather e m => decide (e ≤ 4) && L.length == 4 * m.length && (List.range m.length).all fun j => (List.range 4).all fun i => L.getD (4 * j + i) 0 ==
    match m[j]? with | some (some x) => if i < e then a.data.getD (x + i) 0 else 0 | _ => 0
  | _ => false
/-- A load of one byte, sign-extended, an atomic of 4, an exchange of 8 and a gather of bytes, each with the bytes that land. -/
theorem meets_RemoteAccessesAreServed_lands_small :
    ∀ x ∈ [(AccKind.load 1 true, [0x80, 0xFF, 0xFF, 0xFF, 0xFF, 0xFF, 0xFF, 0xFF]), (.atomic 4 .add 1, [0x80, 1, 2, 3, 0, 0, 0, 0]),
        (.cas 8 0 1, [0x80, 1, 2, 3, 4, 5, 6, 7]), (.gather 1 [some 0, none], [0x80, 0, 0, 0, 0, 0, 0, 0])],
      let a := { access x.1 0x1000 (.ring 3 0 1) true with data := [0x80, 1, 2, 3, 4, 5, 6, 7] }
      ((ringLoads [a]).tile 0).accs.find? (fun b => b.id = 4) = some a ∧ landsAs a x.2 = true := by decide +kernel
theorem meets_RemoteAccessesAreServed_counter :
    let a := access (.counterRead 0 5 7) 0 (.reg 7) true
    ((onItsWay [a]).tile 0).accs.find? (fun b => b.id = 4) = some a ∧ a.dest = .reg 7 ∧ a.landed = false ∧ a.admitted = true ∧ a.data.length = 8 ∧
    (∀ x ∈ a.pieces, x.done = true) := by decide +kernel
theorem meets_RemoteAccessesAreServed_later :
    let T := (ringLoads [vectorLoad 3 false, vectorLoad 4 true]).tile 0
    T.accs = [] ++ vectorLoad 3 false :: [] ++ vectorLoad 4 true :: [] ∧ (vectorLoad 3 false).ctx = (vectorLoad 4 true).ctx ∧
    (vectorLoad 3 false).id ≠ 4 ∧ (vectorLoad 3 false).landed = false ∧ (vectorLoad 3 false).dest = .ring 3 0 1 ∧
    T.accs.find? (fun b => b.id = 4) = some (vectorLoad 4 true) := by decide +kernel
theorem meets_RemoteAccessesAreServed_scales :
    let a := access (.scales true 1) 0x1000 (.scale true 1) true
    let s := (onItsWay [a]).modCtx (.ctx 0 0) fun k => k.modBank fun b => { b with sqb := [.claimed 4 0] }
    (s.tile 0).accs.find? (fun b => b.id = 4) = some a ∧ a.dest = .scale true 1 ∧ a.err = false ∧ (∀ x ∈ a.pieces, x.done = true) ∧
    ((s.tile 0).ctx 0).bank.sqb[0]? = some (.claimed 4 0) := by decide +kernel

/-- A table of owner 1: root at frame 1, then frames 2 and 3, and a leaf for device frame 5, or (large) in frame 2. -/
def tableBytes (l : List (Nat × Byte)) : MemSys :=
  { MemSys.reset with fot := 0x100000, bytes := l, owners := MemSys.reset.owners.set 1 ⟨true, 1, 1⟩ }
def walking (m : MemSys) (va : Nat) : State :=
  { State.reset.modTile 0 fun T => { T with walks := [⟨0, 3, va⟩], mem := { T.mem with bnd := ⟨true, 1, 0, 0, 1, 1, 0⟩ } } with mem := m }
def leafTable : MemSys := tableBytes
  [(0x10000, 1), (0x10002, 2), (0x20000, 1), (0x20002, 3), (0x30000, 0x0F), (0x30002, 5), (0x30006, 0x80), (0x30007, 1), (0x100005, 1)]
theorem meets_WalksAndAllocations_leaf :
    let s := walking leafTable 0
    ((s.tile 0).walks.take 4).find? (fun x => x.ctx = 0 && x.h = 3) = some ⟨0, 3, 0⟩ ∧
    (s.mem.walk (s.tile 0).mem.bnd.owner 0 = .leaf 0x018000000005000F false 0x30000) := by decide +kernel
theorem meets_WalksAndAllocations_ends :
    (walking leafTable (2 ^ 55)).mem.walk 1 (2 ^ 55) = .absent ∧ (walking leafTable (2 ^ 42)).mem.walk 1 (2 ^ 42) = .absent ∧
    (walking (tableBytes [(0x10000, 3), (0x10002, 2)]) 0).mem.walk 1 0 = .format ∧
    (walking (tableBytes (leafTable.bytes.dropLast ++ [(0x100005, 2)])) 0).mem.walk 1 0 = .owner := by decide +kernel
/-- Home 8 where the nearest slice has, or has not, claimed the region before. -/
theorem meets_WalksAndAllocations_firstTouch :
    (0x018000000005000F : Nat) / 2 ^ 52 % 2 ^ 4 = 8 ∧ (leafTable.read (leafTable.rgn.toNat + (5 * 2 ^ 16 + 0 % 2 ^ 16) / 2 ^ 16)).getLsbD 7 = false ∧
    (let m := { leafTable with bytes := (5, 0x83) :: leafTable.bytes, rgn := 0 }
     (m.read (m.rgn.toNat + (5 * 2 ^ 16 + 0 % 2 ^ 16) / 2 ^ 16)).getLsbD 7 = true ∧ m.walk 1 0 = .leaf 0x018000000005000F false 0x30000) := by decide +kernel
/-- An unbacked store of one line that waits for its decision; owner 1 holds a reservation, or none. -/
def waitingStore : Access := ⟨4, 0, .store, 1, 2, 0, true, false, .rlx, .tile, [⟨2 ^ 39, 0, 8, false, false, 0, false⟩], List.replicate 8 0, .none, false, false⟩
def deciding (units : Nat) : State :=
  { onItsWay [waitingStore] with mem := { MemSys.reset with resv := [⟨1, 0, units⟩], doms := MemSys.reset.doms.set 0 { Domain.reset with set := 1 } } }
def claim (t : TileId) (id line : Nat) : Claim := ⟨t, id, ⟨line, 1, 0⟩⟩
/-- The same of two lines, with requests of tile 1 that are not decided, and a list of lines admitted. -/
def decidingTwo (units others : Nat) (mine : List Nat) (hold : Bool) : State :=
  let a := { waitingStore with pieces := [⟨2 ^ 39 + 120, 0, 8, false, false, 0, false⟩, ⟨2 ^ 39 + 128, 8, 8, false, false, 0, false⟩] }
  let s := { onItsWay [a] with mem := { (deciding units).mem with
    claims := (List.range others).map (fun j => claim 1 7 (2 ^ 32 + 8 + j)) ++ mine.map (claim 0 4), doms := MemSys.reset.doms.set 0 { Domain.reset with set := 1, hold := hold } } }
  s.modTile 1 fun T => { T with accs := [{ waitingStore with id := 7 }] }
/-- Two absent lines of which none, one or both are admitted; room for them, none, and none beside what is admitted for another access. -/
theorem meets_WalksAndAllocations_decision : ∀ x ∈ [(1, 0, [], 2, true), (1, 0, [2 ^ 32], 1, true), (1, 0, [2 ^ 32, 2 ^ 32 + 1], 0, true), (0, 0, [], 2, false),
      (1, 511, [], 2, true), (1, 512, [], 2, false), (1, 511, [2 ^ 32], 1, false)],
    let s := decidingTwo x.1 x.2.1 x.2.2.1 false
    let T := s.tile 0
    let live := s.mem.claims.filter fun y => match (s.tile y.tile).accs.find? (fun b => b.id = y.id) with | some b => !b.admitted | none => false
    ∀ a ∈ T.accs,
    let todo := a.lines.filter fun l => !s.mem.lineIn (l * 128) && s.mem.unbacked (l * 128) && !(live.filter fun y => y.tile == 0 && y.id == 4).any fun y => y.line.line == l
    T.accs.find? (fun b => b.id = 4) = some a ∧ a.admitted = false ∧ (∀ p ∈ a.pieces, T.mayPerform a p = true) ∧ live = s.mem.claims ∧ todo.length = x.2.2.2.1 ∧
    decide (((s.mem.lines ++ live.map fun y => y.line).filter fun y => y.owner = 1 && y.dom = 0 && (s.mem.dom 0).home (y.line * 128) == (s.mem.dom 0).home (2 ^ 39)).length <
      s.mem.quota 1 0) = x.2.2.2.2 := by decide +kernel
/-- The same while its domain is held. -/
theorem meets_WalksAndAllocations_held : ((decidingTwo 1 0 [] true).mem.doms[(0 : Fin 8)]).hold = true ∧
    (((decidingTwo 1 0 [] true).mem.doms[(0 : Fin 8)]).before.contains ((0 : TileId), 4)) = false := by decide +kernel

/-- A bundle that asks, its handle valid or not, and its page's home slice with room or without. -/
def asking (valid : Bool) (units : Nat) : State :=
  let k := { Ctx.launch.modBank (fun b => { b with h := b.h.set 2 { Handle.launch with valid := valid, write := true, unb := true, frame := 0x800000 } }) with
    sel := .blocked, ask := some ⟨4, 0, kept0 none, none⟩ }
  { (State.reset.modCtx (.ctx 0 0) fun _ => k).modTile 0 (fun T => { T with mem := { T.mem with bnd := ⟨true, 1, 0, 0, 1, 1, 0⟩ } }) with
    mem := (deciding units).mem }
theorem meets_WalksAndAllocations_asks : ∀ x ∈ [(false, 1), (true, 1), (true, 0)],
    let s := asking x.1 x.2
    let T := s.tile 0
    let b := (kept0 none).access T 0
    (T.ctx 0).ask = some ⟨4, 0, kept0 none, none⟩ ∧ (∀ k : Fin 4, (match (T.ctx k).ask with | some y => y.id == 4 && y.answer.isNone | none => false) = true → k = 0) ∧
    (T.ctx 0).bank.h[(kept0 none).h].valid = x.1 ∧ (b.pieces.all fun p => T.mayPerform b p) = true ∧
    (x.1 = true → (decide (s.mem.inUse 1 0 ((s.mem.dom 0).home (2 ^ 39)) + 1 ≤ s.mem.quota 1 0)) = (x.2 == 1)) := by decide +kernel
theorem meets_WalksAndAllocations_unasked : ∀ k : Fin 4, (((deciding 1).tile 0).ctx k).ask = none := by decide +kernel

/-- Host half 0 asked for, and held in each state; a step that waits for it has begun in it, or not. -/
def hostAsk (k : CxlReq) : HostReq := ⟨2 ^ 41, k, 1, 0, [], false⟩
def heldHalf (st : Mesi) : HostHalf := ⟨2 ^ 41, st, List.replicate 64 7, 1, 0, false⟩
def holding (st : Mesi) : State := { State.reset with mem := { MemSys.reset with halves := [heldHalf st] } }
theorem meets_HostLinesAndSnoops :
    (∀ p ∈ [(CxlReq.rdShared, false), (.rdOwn, true), (.rdOwnNoData, true)],
      ({ MemSys.reset with hreqs := [hostAsk p.1] } : MemSys).hreqs.find? (fun r => r.half == (2 ^ 47 + 0) / 64 && (r.kind != .rdShared) == p.2) = some (hostAsk p.1)) ∧
    (∀ st ∈ [Mesi.shared, .exclusive, .modified],
      (holding st).mem.halves.find? (fun y => y.half = (2 ^ 47 + 63) / 64) = some (heldHalf st) ∧
      (List.replicate 64 (7 : Byte)).length = 64 ∧ Sparse.wf 0 (holding st).mem.bytes = true ∧ (holding st).mem.half (2 ^ 47 + 5) ≠ none) ∧
    State.reset.mem.halves.find? (fun y => y.half = (2 ^ 47 + 0) / 64) = none ∧
    State.reset.mem.place 63 = .device ∧ State.reset.dev.ready = false ∧ ({ State.reset with dev := { State.reset.dev with ready := true } } : State).dev.ready = true ∧
    State.reset.mem.place (2 ^ 47 + 5) = .host ∧ State.reset.mem.half (2 ^ 47 + 5) = none ∧ 1 ≤ 1 ∧ 63 % 64 + 1 ≤ 64 := by decide +kernel
/-- A set of the cache that is full, and one that has a way left; a domain that waits for its last request. -/
theorem meets_HostLinesAndSnoops_sets :
    (4 ≤ ([1, 2, 3, 4] : List Nat).length ∧ 5 ∉ [1, 2, 3, 4] ∧ ([1] : List Nat).length < 8) ∧ (hostAsk .rdShared).waiters = [] ∧
    ({ hostAsk .rdShared with waiters := [.copy 0 0] } : HostReq).waiters[0]? = some (.copy 0 0) ∧
    (hostAsk .rdShared).nalloc = false ∧ ({ hostAsk .rdShared with nalloc := true } : HostReq).nalloc = true ∧
    (∀ w ∈ [HostWait.access 0 4 0, .copy 0 0, .add 0 0, .page 1 0 3], ({ hostAsk .rdShared with waiters := [w] } : HostReq).waiters[0]? = some w) ∧
    (let m := { MemSys.reset with hreqs := [hostAsk .rdShared], doms := MemSys.reset.doms.set 0 { Domain.reset with busy := true, hold := true } }
     (m.dom 0).busy = true ∧ ∀ z ∈ m.hreqs.filter fun r => r != hostAsk .rdShared, z.dom ≠ 0) := by decide +kernel
/-- A set whose ways are all withdrawn, wherever its line goes. -/
theorem meets_HostLinesAndSnoops_lost (home set : Nat) : 4 - ((List.replicate 4 (home, set)).filter fun x => x == (home, set)).length = 0 := by simp
/-- With no access on its way none has begun in the half, so the half held is there after what has begun is finished. -/
theorem meets_HostLinesAndSnoops_begun (h : Nat) :
    ¬ ∃ t : TileId, ∃ a ∈ ((holding .modified).tile t).accs, ∃ p ∈ a.pieces, p.done = true ∧ a.kind.touches = true ∧ p.pa / 64 = h := by
  simp [holding, State.reset, State.tile, Tile.reset]
/-- The owner table's bounds: its base is a frame boundary far from address 0x7F_0000_0000. -/
theorem meets_WritesAreReadBack :
    Memory.wf MemSys.reset = true ∧ MemSys.reset.wins = [] ∧ MemSys.reset.late = [] ∧ (∀ h ∈ MemSys.reset.halves, h.data.length = 64) ∧
    0x7F00000000 % 64 + (List.replicate 64 (1 : Byte)).length ≤ 64 ∧ ∀ f < 2 ^ 23, (MemSys.reset.fot.toNat + f) / 128 ≠ 0x7F00000000 / 128 := by
  refine ⟨by decide, rfl, rfl, by simp [MemSys.reset], by decide, fun f hf => ?_⟩
  simp [MemSys.reset]; omega
/-- The first element of a window of BF16 elements on the page in frame 5. -/
theorem meets_WritesAreReadBack_window :
    let w : RedWindow := ⟨1, 0, 128, true, 0, [5], [], false⟩
    let m := { MemSys.reset with wins := [w] }
    Memory.wf m = true ∧ Sparse.wf 0 m.tags = true ∧ m.eff 0x50000 = 0x50000 ∧ w.va % 64 = 0 ∧ w.len % 64 = 0 ∧ Sparse.wf RedElem.zero w.els = true ∧
    m.window 0x50000 = some (w, 0) ∧ [(0x80 : Byte), 0x3F].length = w.esz ∧ 0 % w.esz = 0 := by decide +kernel

/-- The bundle sees panel 1 as stored, and two landed scale entries stand on each side. -/
def withScales : State :=
  let k := Ctx.launch.modBank fun b => { b with sqa := [.landed 1, .landed 2], sqb := [.landed 3] }
  { issuingAs k with issue := { issuing.issue with ctx := k } }
theorem meets_MatrixInstructions :
    let s := withScales
    s.issue.agent = .ctx 0 0 ∧ MFmt.mx8e4.scaled = true ∧ MFmt.bf16.scaled = false ∧
    (s.scaleAvail false).take 1 = [(1 : BitVec 256)].map .landed ∧ (s.scaleAvail true).take 1 = [(3 : BitVec 256)].map .landed ∧
    (s.scaleAvail false).take 0 = ([] : List (BitVec 256)).map .landed ∧
    AllPerform [.mma g0 0 (.panel 1) (.panel 2) r1 .mx8e4 .mx8e4 0 false, .mma g0 0 (.panel 1) (.panel 2) r1 .bf16 .bf16 7 true,
      .mmas g0 0 (.pop 1) (.panel 2) (.pop 2) .i8 .i8 0 false true, .mzero g0 3, .mldp g0 .i8 0 r1 0 r3 true, .mstp g0 .bf16 0 r1 0 r3 .rz true false,
      .mrput g0 0 r1 r2, .mtrn g0 0 1, .mscl g0 0 1 r2 .rne, .mexp g0 0 1 r2 r3, .mrow g0 1 0 r2, .mmax g0 1 0 r2, .mflg g0 (.row 1 0 r2),
      .mflg g0 (.any 1 0), .mfclr g0 0, .mops g0 (1 + 2 * 32), .mwin g0 5] s := by decide +kernel

def mEntry (w : MWork) (begun : Option MCapture) : MEntry := ⟨3, 0, w, begun, [], none⟩
def captured : MCapture := ⟨1, 1, 0, [], Panel.zero⟩
def matrixQueue (e : MEntry) : State := State.reset.modTile 0 fun T => { T with mq := [e] }
theorem meets_MatrixEntriesArePerformed (w : MWork) (b : Option MCapture) (q : Option MPart) :
    ((matrixQueue { mEntry w b with part := q }).tile 0).mq = { mEntry w b with part := q } :: [] ∧ ({ mEntry w b with part := q } : MEntry).begun = b ∧
    ({ mEntry w b with part := q } : MEntry).work = w ∧ ({ mEntry w b with part := q } : MEntry).part = q ∧
    ((matrixQueue (mEntry w b)).tile 0).stopReq = false ∧
    (((matrixQueue (mEntry w b)).modTile 0 fun T => { T with stopReq := true }).tile 0).stopReq = true ∧ (∀ x ∈ ([] : List MEntry), x.serial ≠ 3) :=
  ⟨by simp [matrixQueue], rfl, rfl, rfl, by simp [matrixQueue]; rfl, by simp, fun _ h => nomatch h⟩
/-- The head of a matrix queue outside a curtain, begun or not. -/
theorem meets_MatrixInstructions_entry (b : Option MCapture) :
    let T := (matrixQueue (mEntry (.zero 0) b)).tile 0
    T.mq = mEntry (.zero 0) b :: [] ∧ T.stopReq = false ∧ T.fenced 4 3 = false ∧ (mEntry (.zero 0) b).begun = b ∧
    (∀ k v, (mEntry (.zero 0) b).work ≠ .add k v) := by
  refine ⟨by simp [matrixQueue], by simp [matrixQueue]; rfl, ?_, rfl, fun _ _ h => nomatch h⟩
  simp [matrixQueue, Tile.fenced, State.reset, State.tile, State.modTile, Tile.reset]
theorem meets_MatrixEntriesArePerformed_bounds :
    ((matrixQueue (mEntry (.zero 0) none)).tile 0).fenced 4 3 = false ∧ 31 < 32 ∧ (0 : Nat) < 32 ∧
    vecLen .i8 (32 * (3 + 1)) ≤ 128 ∧ vecLen .bf16 (32 * (1 + 1)) ≤ 128 ∧ Ty.f32 ≠ .i64 ∧ ([.ma, .csel] : List CellOp) ≠ [] ∧
    MFmt.mx8e4.scaled = MFmt.f4.scaled ∧ MFmt.mx8e4.isInt = MFmt.f4.isInt ∧ MFmt.i8.isInt = MFmt.u4.isInt ∧
    (captured.els.getD 5 0 : Nat) < 2 ^ Ty.i8.bits ∧ Sparse.wf 0 State.reset.tiles[(0 : Fin 384)].mem.spad = true := by
  refine ⟨?_, by decide, by decide, by decide, by decide, by decide, by decide, by decide, by decide, by decide, by decide, by decide⟩
  simp [matrixQueue, Tile.fenced, State.reset, State.tile, State.modTile, Tile.reset]
theorem meets_MatrixEntriesArePerformed_no_add : ∀ k w, (mEntry (.trn 0 1) none).work ≠ .add k w := fun _ _ h => nomatch h

/-- A record at scratchpad offset 0 of window 0: byte 0 of its length, byte 7 of its direction; the tile stands alone in its paddock. -/
def withRecord (b0 b7 : Byte) : State :=
  let m := { TileMem.reset with spad := Sparse.puts 0 [] [(0, b0), (7, b7)], bnd := ⟨true, 1, 0, 0, 1, 1, 0⟩ }
  let k := Ctx.launch.modBank fun b => { b with w := b.w.set 0 ⟨0, 0x100000⟩ }
  { issuingAs k with issue := { issuing.issue with ctx := k, mem := m } }
/-- The same with x1, x2 and x3 as given, and the tile as `f` leaves it. -/
def checking (b0 b7 : Byte) (x : List Nat) (f : Tile → Tile) : State :=
  let s := withRecord b0 b7
  let k := s.issue.ctx.modBank fun b =>
    { b with x := ((b.x.set 1 (BitVec.ofNat 64 (x.getD 0 0))).set 2 (BitVec.ofNat 64 (x.getD 1 0))).set 3 (BitVec.ofNat 64 (x.getD 2 0)) }
  { s with issue := { s.issue with ctx := k } }.modTile 0 f
/-- Each issue check just inside its bounds and just beyond them: RSV and UNRSV of 1 to 1024 units; flocks to 255; an entry of MERGE
that waits and one that does not; the slots of MRGDRN at the top of the scratchpad, a limit of 65536, a stream that is closed; members
of a collective of a paddock of one tile; a root in it; BAR's mask with the tile's stage and without; REDOPEN's address. -/
theorem meets_TrapDelivery_bounds : ∀ x ∈ ([
      ([0], id, .rsv g0 1 r1 7, some 0), ([1], id, .rsv g0 1 r1 7, none), ([1024], id, .unrsv g0 1 r1 7, none), ([1025], id, .unrsv g0 1 r1 7, some 1025),
      ([255], id, .flkadd g0 r1 0 1, none), ([255], id, .flkadd g0 r1 1 1, some 256), ([0], id, .flkdel g0 r1 255, none),
      ([1], id, .flkdel g0 r1 255, some 256),
      ([0, 5], (fun T => { T with merges := [⟨3, 5, none⟩] }), .merge g0 r1 r2 r3 3, none),
      ([0, 5], (fun T => { T with merges := [⟨3, 5, some (0, 0, [])⟩] }), .merge g0 r1 r2 r3 3, some 5),
      ([0, 6], (fun T => { T with merges := [⟨3, 5, none⟩] }), .merge g0 r1 r2 r3 3, some 6), ([0, 2 ^ 16], id, .merge g0 r1 r2 r3 3, some (2 ^ 16)),
      ([0xDF000], id, .mrgdrnOpen g0 r1 3, none), ([0xE0000], id, .mrgdrnOpen g0 r1 3, some 0xE0000), ([7 * 2 ^ 24], id, .mrgdrnOpen g0 r1 3, some (7 * 2 ^ 24)),
      ([65536], (fun T => { T with streams := T.streams.set 3 { MergeStream.closed with opened := true } }), .mrgdrnDrain g0 r1 3, none),
      ([65537], id, .mrgdrnDrain g0 r1 3, some 65537), ([0], id, .mrgdrnDrain g0 r1 3, some 3), ([0], id, .mrgdrnFin g0 1 2, some 2),
      ([0, 0], id, .netred g0 .f32 1 r1 r2 7 .add false false, some 0), ([0, 1], id, .netred g0 .f32 1 r1 r2 7 .add false false, none),
      ([0, 2], id, .netred g0 .f32 1 r1 r2 7 .add false false, some 2), ([0, 0, 1], id, .netbc g0 .i8 1 r1 r2 r3 0, none),
      ([0, 0, 2], id, .netbc g0 .i8 1 r1 r2 r3 0, some 2), ([], id, .bar g0 3 .system 1, none), ([], id, .bar g0 3 .system 2, some 2),
      ([128], id, .redopen g0 1 r1 true 277 0, none), ([64], id, .redopen g0 1 r1 true 277 0, some 64),
      ([2 ^ 55], id, .redopen g0 1 r1 true 277 0, some (2 ^ 55)), ([2 ^ 55 - 128], id, .redopen g0 1 r1 true 277 0, none)] :
      List (List Nat × (Tile → Tile) × Instr × Option Nat)),
    let s := checking 0x80 0 x.1 x.2.1
    s.issue.agent = .ctx 0 0 ∧ (∀ o ∈ x.2.2.1.operands, popCheckOf s.bank o = none) ∧ s.popError 7 = none ∧
    checkOf s 7 x.2.2.1 = x.2.2.2.map fun v => .trap 0x03 (some v) 0 := by decide +kernel
/-- A root outside the paddock, and records: clean, with a direction that the instruction does not have, misplaced, and with the rank of its
counter in the paddock and outside it. -/
theorem meets_TrapDelivery_records :
    checkOf (checking 0x80 0 [0, 1, 1] id) 7 (.netbc g0 .i8 1 r1 r2 r3 0) = some (.fault 0x22) ∧
    (∀ x ∈ ([(0x80, 0x00, .cpy g0 0 r1 3), (0x80, 0xA0, .cpyr g0 0 r1 0), (0x80, 0x80, .mcast g0 0 r1 0), (0x80, 0x00, .pgcast g0 0 r1 0), (0x80, 0x20, .seq g0 0 r1 3)] :
        List (Byte × Byte × Instr)),
      let s := checking x.1 x.2.1 [0] id
      (∀ o ∈ x.2.2.operands, popCheckOf s.bank o = none) ∧ s.issue.mem.poison = [] ∧ checkOf s 7 x.2.2 = none) ∧
    (∀ x ∈ ([(0x00, 0x00, 0, .cpy g0 0 r1 3), (0x80, 0x80, 0, .cpy g0 0 r1 3), (0x80, 0x00, 32, .cpy g0 0 r1 3), (0x80, 0x80, 0, .cpyr g0 0 r1 0), (0x80, 0, 0, .mcast g0 0 r1 0),
        (0x40, 0, 0, .pgcast g0 0 r1 0), (0x80, 0xC0, 0, .seq g0 0 r1 3), (0x80, 0x20, 64, .seq g0 0 r1 3)] : List (Byte × Byte × Nat × Instr)),
      checkOf (checking x.1 x.2.1 [x.2.2.1] id) 7 x.2.2.2 = some (.trap 0x03 (some x.2.2.1) 0)) ∧
    (∀ x ∈ [((0 : Byte), none), (1, some (.fault 0x22))],
      let s := checking 0x80 0 [0] id
      let u := { s with issue := { s.issue with mem := { s.issue.mem with spad := Sparse.puts 0 [] ([(0, 0x80)] ++ (if x.1 = 0 then [] else [(4, x.1)]) ++ [(6, 8)]) } } }
      checkOf u 7 (.cpy g0 0 r1 3) = x.2) := by decide +kernel
/-- A port without a launch, one whose table has no entry of the stream, one whose entry is ours, and an address that is not aligned. -/
theorem meets_TrapDelivery_links : ∀ x ∈ ([(false, [], 0, some 0), (true, [], 0, some 63), (true, [(0, BitVec.ofNat 64 (2 ^ 63 + 63 * 2 ^ 56))], 0, none),
      (true, [(0, BitVec.ofNat 64 (2 ^ 63 + 63 * 2 ^ 56))], 64, some 64), (true, [(0, BitVec.ofNat 64 (2 ^ 63 + 2 ^ 62 + 63 * 2 ^ 56))], 0, some 63)] :
      List (Bool × List (Nat × Word) × Nat × Option Nat)),
    let s := (checking 0x80 0 [x.2.2.1] fun T => { T with pad := some 1 })
    let u := { s with ports := s.ports.set 0 { Port.reset with bound := x.1, pad := some 1, table := x.2.1 } }
    checkOf u 7 (.lksendData g0 0 r1 3 false 63 0 true 511) = x.2.2.2.map fun v => .trap 0x03 (some v) 0 := by decide +kernel
/-- An LKRECV of the other side's entry, the reset forms, and LKRECV of the frame at a bound port and one that is not. -/
theorem meets_TrapDelivery_links_all :
    let s := checking 0x80 0 [0] fun T => { T with pad := some 1 }
    let u (side : Nat) : State := { s with ports := s.ports.set 0 { Port.reset with bound := true, pad := some 1, table := [(0, BitVec.ofNat 64 (2 ^ 63 + side * 2 ^ 62 + 63 * 2 ^ 56))] } }
    checkOf (u 1) 7 (.lkrecvPost g0 7 r1 0 false 63 0 false 0) = none ∧ checkOf (u 0) 7 (.lkrecvPost g0 7 r1 0 false 63 0 false 0) = some (.trap 0x03 (some 63) 0) ∧
    checkOf (u 0) 7 (.lksendRst g0 r1 false 63) = none ∧ checkOf (u 1) 7 (.lkrecvRst g0 r1 false 63) = none ∧
    checkOf (u 0) 7 (.lkrecvFrame g0 1 false) = none ∧ checkOf (u 0) 7 (.lkrecvFrame g0 1 true) = some (.trap 0x03 (some 1) 0) := by decide +kernel
/-- MMA beside CSEL with a panel of the pair; scale entries that are too few on each side, and enough; and a ring of no size, and too small. -/
theorem meets_TrapDelivery_matrix :
    (∀ x ∈ ([(0, 0, some (.trap 0x07 (some 0) 1)), (1, 0, some (.trap 0x07 (some 1) 1)), (1, 1, none)] : List (Nat × Nat × Option Verdict)),
      let s := issuing
      let k := Ctx.launch.modBank fun b => { b with sqa := List.replicate x.1 (.landed 1), sqb := List.replicate x.2.1 (.landed 1) }
      let u := { s with issue := { s.issue with ctx := k } }.modCtx (.ctx 0 0) fun _ => k
      (∀ o ∈ (Instr.mma g0 0 (.panel 1) (.panel 2) r1 .mx8e4 .mx8e4 0 false).operands, popCheckOf u.bank o = none) ∧
      checkOf u 6 (.mma g0 0 (.panel 1) (.panel 2) r1 .mx8e4 .mx8e4 0 false) = x.2.2) ∧
    (∀ x ∈ [((2 : Fin 4), some (Verdict.trap 0x03 (some 2) 0)), (1, none)],
      let k := { Ctx.launch with ops := [.csel] }
      let u := { issuing with issue := { issuing.issue with ctx := k } }.modCtx (.ctx 0 0) fun _ => k
      checkOf u 6 (.mma g0 3 (.panel x.1) (.panel 1) r1 .bf16 .bf16 0 false) = x.2) ∧
    (∀ x ∈ [(0, 0, some (Verdict.trap 0x03 (some 3) 0)), (2, 8, some (.trap 0x03 (some 8) 0)), (3, 8, none)],
      let k := Ctx.launch.modBank fun b => { b with q := b.q.set 3 { Ring.launch with lsize := BitVec.ofNat _ x.1, esz := BitVec.ofNat _ x.2.1, base := 0 } }
      let u := { issuing with issue := { issuing.issue with ctx := k } }.modCtx (.ctx 0 0) fun _ => k
      checkOf u 6 (.mma g0 3 (.pop 3) (.panel 1) r1 .bf16 .bf16 0 false) = x.2.2) := by decide +kernel
def isOk {α : Type} : Parsed α → Bool
  | .ok _ => true
  | .illegal => false
  | .route => false
theorem ok_of_isOk {α : Type} {x : Parsed α} (h : isOk x = true) : ∃ r, x = .ok r := by
  cases x with
  | ok a => exact ⟨a, rfl⟩
  | illegal => cases h
  | route => cases h
theorem meets_EngineInstructions :
    AllPerform [.cpy g0 0 r1 3, .cpyr g0 0 r1 0, .mcast g0 0 r1 0, .pgcast g0 0 r1 0, .seq g0 0 r1 3, .seqgo g0 r1 3, .condv g0 1 3,
      .cntadd g0 r1 0 511, .cntadd g0 r1 3 0, .cntadd g0 r1 4 0, .cntadd g0 r1 5 0, .cntadd g0 r1 7 511, .cntwait g0 r1 0, .cpywait g0 1,
      .cntrd g0 1 (.reg 0) false 511, .cntrd g0 1 r1 true 0, .qfence g0 63, .drain g0, .fence g0 .system, .fence g0 .tile] (withRecord 0x80 0) ∧
    (withRecord 0x80 0).issue.agent = .ctx 0 0 ∧ Sparse.wf 0 ((withRecord 0x80 0).tile 0).mem.spad = true := by decide +kernel
theorem meets_EngineInstructions_records :
    (∃ r, (withRecord 0x80 0x00).copyRec 0 r1 cpyDir = .ok r) ∧ (∃ r, (withRecord 0x80 0xA0).copyRec 0 r1 cpyrDir = .ok r) ∧
    (∃ r, (withRecord 0x80 0x80).copyRec 0 r1 mcastDir = .ok r) ∧ (∃ r, (withRecord 0x80 0x00).pageRec 0 r1 = .ok r) ∧
    (∃ r, (withRecord 0x80 0x20).seqRec 0 r1 = .ok r) :=
  ⟨ok_of_isOk (by decide +kernel), ok_of_isOk (by decide +kernel), ok_of_isOk (by decide +kernel), ok_of_isOk (by decide +kernel),
    ok_of_isOk (by decide +kernel)⟩

theorem meets_CollectiveMergeAndLinkInstructions :
    AllPerform [.bar g0 3 .system 0xFFFF, .scene g0, .netred g0 .f32 1 r1 r2 7 .add false false, .netbc g0 .i8 1 r1 r2 r3 0, .redopen g0 1 r1 true 277 0x1FFF,
      .redclose g0 1 r1, .mrgdrnOpen g0 r1 3, .merge g0 r1 r2 r3 0, .mrgdrnDrain g0 r1 3, .mrgdrnFin g0 1 0, .lksendData g0 0 r1 3 true 63 0x3FFF true 511,
      .lkrecvPost g0 7 r1 0 false 0 0 false 0, .lksendRst g0 r1 true 63, .lkrecvRst g0 r1 false 0, .lkrecvFrame g0 1 true] issuing ∧
    issuing.issue.agent = .ctx 0 0 := by decide +kernel
/-- Stream 3 with entries 5 and 6 filled, out of order, and a limit beyond them; the same stream at .fin; and an entry that MERGE fills. -/
theorem meets_CollectiveMergeAndLinkInstructions_merge :
    let l : List MergeEntry := [⟨3, 6, some (0, 0, [])⟩, ⟨3, 5, some (1, 2, [])⟩]
    let s := (withX 7 5).modTile 0 fun T => { T with merges := l }
    s.issue.agent = .ctx 0 0 ∧ AllPerform [.mrgdrnDrain g0 r1 3, .mrgdrnFin g0 1 3, .merge g0 r1 r2 r3 1] s ∧ (s.X 1 r1).toNat = 7 ∧
    (s.tile 0).merges.filter (fun e => e.stream = (3 : BitVec 2).toFin && e.seq < 7) = l ∧ (∀ e ∈ l, e.part ≠ none) ∧ (s.X 2 r2).toNat = 5 ∧
    ([⟨1, 5, none⟩] : List MergeEntry)[0]? = some ⟨1, 5, none⟩ := by decide +kernel

/-- A copy of 256 bytes, or of a direction, waiting at the head of queue 0. -/
def copy0 (dir : Nat) : CopyRec := ⟨dir, false, ⟨0, 0x100000⟩, ⟨0, 0x100000⟩, false, 0, 0, 0, 256, 0, 0, 0⟩
def queueEntry (w : CopyWork) (done : Bool) : CopyEntry := ⟨2, 0, w, 0, false, none, false, done, 0, none⟩
def copying (e : CopyEntry) (m : MemSys) : State :=
  { State.reset.modTile 0 (fun T => { T with queues := T.queues.set 0 [e], mem := { T.mem with bnd := ⟨true, 1, 0, 0, 1, 1, 0⟩ } }) with mem := m }
def seq0 (skew : Nat) : SeqRec := ⟨copy0 0, [2, 1, 1, 1, 1, 3], skew, [1, 0, 0, 0, 0, -1], [0, 0, 0, 0, 0, 0]⟩
def emitting (z : SeqRec) (u : SeqRun) (b : List Bool) : State := State.reset.modTile 0 fun T => { T with seqs := T.seqs.set 0 ⟨some z, some u, b⟩ }
theorem meets_CopiesAtWork_sequencer :
    (∀ idx ∈ [[0, 0, 0, 0, 0, 0], [1, 0, 0, 0, 0, 2]],
      let T := (emitting (seq0 0) ⟨idx, -5, 0, 0⟩ []).tile 0
      T.seqs[(0 : Fin 4)].record = some (seq0 0) ∧ T.seqs[(0 : Fin 4)].run = some ⟨idx, -5, 0, 0⟩ ∧ T.stopReq = false ∧ T.copies < 128 ∧
      (seq0 0).counts.length = 6 ∧ idx.length = 6 ∧ (∀ p ∈ idx.zip (seq0 0).counts, p.1 < p.2) ∧ (seq0 0).skew = 0) ∧
    (∀ x ∈ [([0, 0, 0, 0, 0, 1], 0, 1, true), ([0, 0, 0, 0, 0, 1], 0, 2, false), ([0, 0, 0, 0, 0, 2], 1, 1, true), ([1, 0, 0, 0, 0, 2], 0, 1, false), ([0, 0, 0, 0, 0, 1], 1, 1, false)],
      ∀ bits ∈ [[], [true], [false]],
      let u : SeqRun := ⟨x.1, 0, 0, x.2.1⟩
      let z := seq0 x.2.2.1
      let T := (emitting z u bits).tile 0
      T.seqs[(0 : Fin 4)].record = some z ∧ T.seqs[(0 : Fin 4)].run = some u ∧ T.stopReq = false ∧ T.copies < 128 ∧ z.counts.length = 6 ∧ u.idx.length = 6 ∧
      (∀ p ∈ u.idx.zip z.counts, p.1 < p.2) ∧ T.seqs[(0 : Fin 4)].bits = bits ∧
      (decide (z.skew ≠ 0 ∧ z.skew ≤ u.idx.getD 5 0 ∧ u.used ≤ u.idx.getD 5 0 - z.skew ∧ u.idx.take 5 = [0, 0, 0, 0, 0]) = x.2.2.2)) ∧
    (∀ i ∈ [1, 2],
      let u : SeqRun := ⟨[0, 0, 0, 0, 0, i], 0, 0, 0⟩
      let T := (emitting (seq0 1) u [false]).tile 0
      T.seqs[(0 : Fin 4)].run = some u ∧ (seq0 1).skew ≠ 0 ∧ (seq0 1).skew ≤ i ∧ u.used ≤ i - (seq0 1).skew ∧ T.seqs[(0 : Fin 4)].bits = false :: [] ∧
      (∀ p ∈ u.idx.zip (seq0 1).counts, p.1 < p.2)) := by decide +kernel
theorem meets_CopiesAtWork_head : ∀ d ∈ [(0, false), (1, false), (2, false), (3, false), (4, false), (5, false), (0, true), (4, true)],
    let e := queueEntry (.copy (copy0 d.1)) d.2
    let T := (copying e leafTable).tile 0
    T.queues[(0 : Fin 4)] = e :: [] ∧ e.stopped = none ∧ e.held = false ∧ T.fenced 0 e.serial = false ∧ e.done = d.2 ∧ e.begun = false ∧ e.frag = none ∧
    T.mem.poison = [] ∧ ((copying e leafTable).net 0).scenes = [] ∧ Sparse.wf 0 T.mem.spad = true ∧ Sparse.wf 0 T.mem.bank0 = true ∧
    Sparse.wf 0 T.mem.bank1 = true := by decide +kernel
/-- A unit of the stage bank, and one of the scratchpad, in error; a rectangle of one tile that fits the paddock, and one of two that does not. -/
theorem meets_CopiesAtWork_errors :
    2 ^ 17 + (if TileMem.reset.stage1 then 2 ^ 14 else 0) + (0 + 0) % 2 ^ 17 / 8 ∈ [2 ^ 17] ∧ (0 + 0) % 2 ^ 20 / 8 ∈ [0] ∧
    (0 / 2 ^ 10 % 2 ^ 5 + (0 / 2 ^ 19 % 2 ^ 5 + 1) ≤ 1 ∧ 0 / 2 ^ 15 % 2 ^ 4 + (0 / 2 ^ 24 % 2 ^ 4 + 1) ≤ 1) ∧
    ¬ (2 ^ 19 / 2 ^ 10 % 2 ^ 5 + (2 ^ 19 / 2 ^ 19 % 2 ^ 5 + 1) ≤ 1) := by decide
def isAt : Fragment → Option (Nat × Nat)
  | .at_ pa e => some (pa, e)
  | _ => none
def stopsFor : Fragment → Option Nat
  | .stop c => some c
  | _ => none
theorem at_of {f : Fragment} {pa e : Nat} (h : isAt f = some (pa, e)) : f = .at_ pa e := by
  cases f <;> simp [isAt] at h
  rw [h.1, h.2]
theorem stop_of {f : Fragment} {c : Nat} (h : stopsFor f = some c) : f = .stop c := by
  cases f <;> simp [stopsFor] at h
  rw [← h]
theorem meets_CopiesAtWork_page :
    leafTable.fragmentAt 1 0 true false = .at_ 0x50000 0x018000000005000F ∧ leafTable.fragmentAt 1 0 false true = .at_ 0x50000 0x018000000005000F :=
  ⟨at_of (by decide +kernel), at_of (by decide +kernel)⟩
/-- The leaf of the table has home 8, which names no fixed slice; with home 0 it has. -/
def fixedTable : MemSys :=
  { leafTable with bytes := leafTable.bytes.filter fun p => p.1 != 0x30006, doms := leafTable.doms.set 0 { Domain.reset with set := 1 } }
theorem meets_CopiesAtWork_line :
    fixedTable.fragmentAt 1 0 true false = .at_ 0x50000 0x010000000005000F ∧ leafHome 0x010000000005000F ≠ 8 ∧ leafUnb 0x010000000005000F = false ∧
    fixedTable.fragmentAt 1 (2 ^ 42) true false = .stop 1 ∧ fixedTable.badIn 0x50000 64 = false ∧ fixedTable.eff 0x50000 = 0x50000 ∧
    fixedTable.place 0x50000 ≠ .host ∧ (fixedTable.walk 1 0 = .leaf 0x010000000005000F false 0x30000) ∧ fixedTable.walk 1 (2 ^ 42) = .absent ∧
    ({ fixedTable with bad := [0x50000 / 8] } : MemSys).badIn 0x50000 64 = true :=
  ⟨at_of (by decide +kernel), by decide, by decide, stop_of (by decide +kernel), by decide +kernel, by decide +kernel, by decide +kernel, by decide +kernel,
    by decide +kernel, by decide +kernel⟩
/-- A leaf in host memory, and one of a line that is not backed, with room for it and without. -/
def hostTable : MemSys :=
  { tableBytes [(0x10000, 1), (0x10002, 2), (0x20000, 1), (0x20002, 3), (0x30000, 0x0F), (0x30005, 0x80), (0x30007, 1)] with
    doms := MemSys.reset.doms.set 0 { Domain.reset with set := 1 } }
theorem meets_CopiesAtWork_host :
    hostTable.walk 1 0 = .leaf 0x010080000000000F false 0x30000 ∧ hostTable.place (hostTable.eff (2 ^ 47)) = .host ∧
    0x010080000000000F / 2 ^ 16 % 2 ^ 32 * 2 ^ 16 = 2 ^ 47 ∧ (0x010080000000000F : Nat).testBit 6 = false ∧ hostTable.half (2 ^ 47) = none ∧ hostTable.hreqs = [] ∧
    (let m := { hostTable with halves := [hostHalf .shared] }
     m.half (2 ^ 47) = some (hostHalf .shared) ∧ (hostHalf .shared).st = .shared) := by decide +kernel
theorem meets_CopiesAtWork_room : ∀ p ∈ [(1, true), (0, false)],
    let m := { MemSys.reset with resv := [⟨1, 0, p.1⟩], doms := MemSys.reset.doms.set 0 { Domain.reset with set := 1 } }
    m.unbacked (2 ^ 39) = true ∧ (m.allocate 1 0 [2 ^ 39 / 128]).isSome = p.2 ∧ (0x010000800000008F : Nat).testBit 7 = true := by decide +kernel
/-- A fixed page whose domain is held, or not, and a first-touch page, which is of no domain. -/
theorem meets_CopiesAtWork_parked : ∀ h ∈ [true, false],
    let m := { fixedTable with doms := fixedTable.doms.set 0 { Domain.reset with set := 1, hold := h } }
    m.walk 1 0 = .leaf 0x010000000005000F false 0x30000 ∧ 0x010000000005000F / 2 ^ 52 % 16 ≠ 8 ∧ (m.dom (Fin.ofNat 8 (0x010000000005000F / 2 ^ 52))).hold = h ∧
    0x018000000005000F / 2 ^ 52 % 16 = 8 := by decide +kernel
/-- A window of BF16 elements on the page in frame 5, and a copy of 64 bytes into it. -/
theorem meets_CopiesAtWork_window :
    let w : RedWindow := ⟨1, 0, 128, true, 0, [5], [], false⟩
    let m := { fixedTable with wins := [w] }
    w ∈ m.wins ∧ w.owner = 1 ∧ w.bf = true ∧ m.wins.Nodup ∧ Sparse.wf RedElem.zero w.els = true ∧ (∀ x ∈ m.wins, x = w) ∧
    (∀ j < 64, w.offset (0x50000 + j) = some (0 + j)) ∧ (∀ j < 64, m.eff (0x50000 + j) = 0x50000 + j) ∧ 2 ∣ 0 + (0 - 0) ∧ 2 ∣ 64 ∧
    w.offset (0x50000 + 128) = none := by decide +kernel
theorem meets_CopiesAtWork_window_counts (i : Nat) : (Sparse.get RedElem.zero ([] : Sparse RedElem) i).count ≤ 65536 := by
  simp [Sparse.get, RedElem.zero]
/-- A copy that has translated no fragment, an earlier one, or the one at hand. -/
theorem meets_CopiesAtWork_fragments : ∀ x ∈ [(none, true), (some (0x10000, 1, 2), true), (some (0, 1, 2), false)],
    let e := { queueEntry (.copy (copy0 0)) false with frag := x.1 }
    ((e.frag.all fun f => decide (f.1 ≠ (copy0 0).src / 2 ^ 16 * 2 ^ 16)) = x.2) := by decide
theorem meets_CopiesAtWork_add :
    let e := queueEntry (.add 3 5) false
    ((copying e MemSys.reset).tile 0).queues[(0 : Fin 4)] = e :: [] ∧ e.work = .add 3 5 ∧ ((copying e MemSys.reset).tile 0).fenced 0 e.serial = false := by
  decide +kernel

/-- Launch 1, alone on tile 0, running. -/
def pad1 : Paddock :=
  { pid := 1, owner := 1, slot := 0, fn := 0, proc := 0, cls := 1, prio := 0, phase := .running, ocol := 0, orow := 0, cols := 1, rows := 1,
    nscene := 1, nent := 1, net := PadNet.empty, pkt := [], k := 0, code := ⟨0, 0, 0, [], 0⟩, attest := 0, late := [], curtains := 0, killed := none,
    image := none, waited := 0, recorded := [], queue := ⟨1, 0x8000, 0⟩, edits := [], part := false, loaded := none, due := false }
def running (P : Paddock) (f : Tile → Tile) : State :=
  { State.reset.modTile 0 (fun T => f { T with pad := some 1, mem := { T.mem with bnd := ⟨true, 1, 0, 0, 1, 1, 0⟩ } }) with pads := [P] }
/-- A router entry: output 4 (the local tile), from the tile itself, for one cycle from cycle 0. -/
def wing : Word := 0x8000000001000000 ||| 1 <<< 24
/-- A flit at the router of rank 0, and the dir-2 copy that it belongs to. -/
def flit0 (cyc : Nat) : Flit := ⟨0, 0, cyc, List.replicate 128 0, 0, 0, 2⟩
def flying (used : List (Nat × Nat × Nat)) (l : List Flit) (router : Sparse Word) (e : CopyEntry) : State :=
  running { pad1 with net := { PadNet.empty with used := used, flits := l } } fun T =>
    { T with cycle := 1, queues := T.queues.set 0 [e], mem := { T.mem with router := router } }
/-- A flit that no entry takes, one that is delivered, before the copy's last and as its last, and one that meets another at its output. -/
theorem meets_CopiesAtWork_flit : ∀ x ∈ [([], [], [], 0), ([(0, wing)], [wing.toNat], [], 0), ([(0, wing)], [wing.toNat], [], 256), ([(0, wing)], [wing.toNat], [(0, 4, 0)], 0)],
    let P := { pad1 with net := { PadNet.empty with used := x.2.2.1, flits := [flit0 0] } }
    let y := { queueEntry (.copy (copy0 2)) false with off := x.2.2.2 }
    let s := flying x.2.2.1 [flit0 0] x.1 y
    s.pad? 1 = some P ∧ (s.tile (P.tile 0)).pad = some 1 ∧ s.rank (P.tile 0) = 0 ∧ 0 ∉ P.net.dead ∧ (s.tile (P.tile 0)).queues[(0 : Fin 4)] = y :: [] ∧
    y.serial = (flit0 0).serial ∧ s.streamsAt P 0 0 0 = x.2.1 ∧ wing.toNat / 2 ^ 59 % 32 = 16 ∧ (flit0 0).data.length = 128 ∧
    Sparse.wf 0 (s.tile 0).mem.bank0 = true ∧ Sparse.wf 0 (s.tile 0).mem.bank1 = true := by decide +kernel
/-- A router entry that forwards north, its link gate closed, and open. -/
theorem meets_CopiesAtWork_forward : ∀ gate ∈ [(0 : BitVec 4), 15],
    let s := flying [] [flit0 0] [(0, BitVec.ofNat 64 (2 ^ 62 + wing.toNat % 2 ^ 59))] (queueEntry (.copy (copy0 2)) false)
    let u := s.modTile 0 fun T => { T with mem := { T.mem with bnd := { T.mem.bnd with gate := gate } } }
    u.streamsAt pad1 0 0 0 = [2 ^ 62 + wing.toNat % 2 ^ 59] ∧ (2 ^ 62 + wing.toNat % 2 ^ 59) / 2 ^ 59 % 32 = 2 ^ (3 - 0) ∧ (u.rank 0, 0, 0) ∉ (u.net 0).used ∧
    ((u.tile 0).mem.bnd.gate.getLsbD (3 - 0) = (gate == 15)) := by decide +kernel
/-- A copy that injects in this cycle, no flit of it being due; and a flit that is due, or is not yet. -/
theorem meets_CopiesAtWork_inject : ∀ l ∈ [[], [flit0 1]],
    let e := queueEntry (.copy (copy0 2)) false
    let s := flying [] l [(0, wing)] e
    let P := { pad1 with net := { PadNet.empty with flits := l } }
    (s.tile 0).pad.bind s.pad? = some P ∧ P.tile (s.rank 0) = 0 ∧ (∀ f ∈ (s.net 0).flits, f.src = s.rank 0 → f.q = 0 → (s.tile 0).sceneCycle < f.cycle) ∧
    (s.tile 0).sceneCycle = (copy0 2).dst % 2 ^ 16 + e.off / 128 ∧ e.off < (copy0 2).len ∧ e.entered ≤ (s.tile 0).sceneCycle ∧ (s.tile 0).mem.poison = [] := by
  decide +kernel
theorem meets_CopiesAtWork_due : ∀ c ∈ [0, 1],
    let s := flying [] [flit0 c] [(0, wing)] { queueEntry (.copy (copy0 2)) false with off := 256 }
    ((s.net 0).flits.find? fun f => f.src == s.rank 0 && f.q == 0 && decide (f.cycle ≤ (s.tile 0).sceneCycle)) = (if c = 0 then some (flit0 0) else none) ∧
    (s.tile 0).sceneCycle ≠ (copy0 2).dst % 2 ^ 16 + 256 / 128 := by decide +kernel
/-- Completions without a counter, with one here, at a rank, and in memory. -/
theorem meets_CopiesAtWork_completion :
    fixedTable.badIn 0x50000 8 = false ∧ ({ fixedTable with bad := [0x50000 / 8] } : MemSys).badIn 0x50000 8 = true ∧
    (∀ k ∈ [0, 1, 2, 3], ({ copy0 0 with cplace := k } : CopyRec).cplace = k) ∧ (queueEntry (.copy (copy0 0)) true).done = true ∧
    (let b := ((copying (queueEntry (.copy (copy0 4)) true) fixedTable).tile 0).mem.bnd
     b.ocol.toNat + b.cols.toNat ≤ 24 ∧ b.orow.toNat + b.rows.toNat ≤ 16) := by decide +kernel

/-- Requests and passes of launch 1. -/
def call0 (k : CallKind) : Call := ⟨9, 1, 0, 0, k, [], 0, none⟩
def pass0 (left : Option (List (Nat × Fin 4))) (cu : Bool) : Pass := ⟨0, 0, 2, cu, 5, 3, 0, 128, List.replicate 128 7, left, [(0x50000, 0x010000000005000F)]⟩
def flocked (x : Pass) (f : Tile → Tile) : State :=
  { running { pad1 with net := { PadNet.empty with flocks := [(3, ⟨[(0, 2)], [0], true⟩)], passes := [x] } }
      (fun T => f { T with queues := T.queues.set 0 [queueEntry (.page false false 0 128 0 5 3) false] }) with
    mem := fixedTable }
theorem meets_FlocksAndPagePasses_requests : ∀ k ∈ [CallKind.flkAdd 3 1, .flkDel 3],
    let s := { flocked (pass0 none false) id with calls := [call0 k] }
    (s.pad? 1).map (·.image) = some none ∧ s.calls.find? (fun d => d.id = 9 && d.pad = 1) = some (call0 k) ∧ (call0 k).kind = k := by decide +kernel
/-- A page that translates, of one fragment, and one that does not. -/
theorem meets_FlocksAndPagePasses_performed : ∀ src ∈ [0, 2 ^ 42],
    let e := queueEntry (.page false false 0 128 src 5 3) false
    let s := { flocked (pass0 none false) fun T => { T with queues := T.queues.set 0 [e] } with mem := fixedTable }
    (s.tile 0).pad = some 1 ∧ (s.tile 0).queues[(0 : Fin 4)] = e :: [] ∧ e.stopped = none ∧ e.held = false ∧ (s.tile 0).fenced 0 e.serial = false ∧
    e.done = false ∧ e.begun = false ∧ (src + 128 - 1) / 2 ^ 16 + 1 - src / 2 ^ 16 = 1 := by decide +kernel
theorem meets_FlocksAndPagePasses_begin : ∀ cu ∈ [false, true],
    let x := { pass0 none cu with page := [] }
    let s := flocked x id
    (s.pad? 1).map (fun P => (P.image, P.net.passes[0]?)) = some (none, some x) ∧ x.left = none ∧
    (x.src + x.len - 1) / 2 ^ 16 - x.src / 2 ^ 16 < x.frags.length ∧ s.mem.halves = [] ∧ (s.tile 0).queues[(0 : Fin 4)] ≠ [] ∧
    (∀ a ∈ [(0x50000, 0x010000000005000F), (0x50040, 0x010000000005000F)], s.mem.badIn a.1 64 = false ∧ s.mem.place (s.mem.eff a.1) ≠ .host ∧
      ({ s.mem with bad := [a.1 / 8] } : MemSys).badIn a.1 64 = true) := by decide +kernel
/-- A page whose first half line lies in host memory and is not held. -/
theorem meets_FlocksAndPagePasses_host :
    let x := { pass0 (some [(0, 2)]) false with page := [], frags := [(2 ^ 47, 0x010080000000000F)] }
    let s := { flocked x id with mem := hostTable }
    (s.pad? 1).map (fun P => P.net.passes[0]?) = some (some x) ∧ x.left ≠ none ∧ x.page.length < x.len ∧
    s.mem.place (s.mem.eff (2 ^ 47)) = .host ∧ (s.mem.evictOthers (2 ^ 47) 1) = (s.mem, []) ∧ s.mem.half (2 ^ 47) = none ∧
    (0x010080000000000F : Nat).testBit 6 = false ∧ s.mem.hreqs = [] := by decide +kernel
/-- A page of a domain that is held, and of one that is not. -/
theorem meets_FlocksAndPagePasses_held : ∀ h ∈ [true, false],
    let x := { pass0 (some [(0, 2)]) false with page := [] }
    let s := { flocked x id with mem := { fixedTable with doms := fixedTable.doms.set 0 { Domain.reset with set := 1, hold := h } } }
    (s.pad? 1).map (fun P => P.net.passes[0]?) = some (some x) ∧ x.left ≠ none ∧ x.page.length < x.len ∧
    (s.mem.dom (Fin.ofNat 8 (0x010000000005000F / 2 ^ 52))).hold = h := by decide +kernel
def openStream (floor lsz : Nat) (busy : List (Option Nat)) (l : List MergeEntry) : Tile → Tile := fun T =>
  { T with merges := l, streams := T.streams.set 2 { MergeStream.closed with opened := true, floor := floor, lsz := lsz, busy := busy } }
/-- The rows of R278: a closed stream, a sequence number below the floor, one the stream holds, a page too long for a slot, a slot that is busy,
a full buffer, and a page that lands. -/
theorem meets_FlocksAndPagePasses_landing : ∀ y ∈ [(false, 0, 10, [none, none, none, none], 0), (true, 6, 10, [none, none, none, none], 0),
      (true, 5, 10, [none, none, none, none], 1), (true, 0, 7, [none, none, none, none], 0), (true, 0, 8, [some 4, none, none, none], 0),
      (true, 0, 8, [none, none, none, none], 16), (true, 5, 8, [none, none, none, none], 15)],
    let x := pass0 (some [(0, 2)]) false
    let l : List MergeEntry := (List.range y.2.2.2.2).map fun i => ⟨2, i + 5 + (if y.2.2.2.2 = 1 then 0 else 1), none⟩
    let s := flocked x fun T => if y.1 then openStream y.2.1 y.2.2.1 y.2.2.2.1 l T else T
    let m := (s.tile 0).streams[(2 : Fin 4)]
    (s.pad? 1).map (fun P => (P.image, P.net.passes[0]?)) = some (none, some x) ∧ x.left = some ((0, 2) :: []) ∧ x.len ≤ x.page.length ∧ m.opened = y.1 ∧
    (y.1 = true → m.floor = y.2.1 ∧ ((s.tile 0).merges.any fun e => e.stream = 2 && e.seq = x.seq) = (y.2.2.2.2 == 1) ∧
      (decide (2 ^ m.lsz < x.len + 128) = (y.2.2.1 == 7)) ∧ (decide (m.busy.getD m.nslot none ≠ none) = (y.2.2.2.1.head? == some (some 4))) ∧
      (s.tile 0).merges.length = y.2.2.2.2) ∧ (((s.tile 0).ctx m.ctx).records.filter fun y => y.queue.isNone).length < 16 := by decide +kernel
theorem meets_FlocksAndPagePasses_over :
    (flocked (pass0 (some []) false) id).pads.map (fun P => P.net.passes[0]?) = [some (pass0 (some []) false)] := by decide +kernel
theorem meets_CopiesAtWork_stop :
    let r : CopyRec := { copy0 0 with src := 2 ^ 42 }
    let e := queueEntry (.copy r) false
    ((copying e fixedTable).tile 0).queues[(0 : Fin 4)] = e :: [] ∧ e.stopped = none ∧ e.done = false ∧ ((copying e fixedTable).tile 0).fenced 0 2 = false ∧
    (copying e fixedTable).mem.fragmentAt ((copying e fixedTable).tile 0).mem.bnd.owner (r.src + e.off) true false = .stop 1 :=
  ⟨by decide +kernel, rfl, rfl, by decide +kernel, stop_of (by decide +kernel)⟩

/-- A graph: node 0 a task for every context and stage, node 1 a branch that waits for a token, node 2 with an order edge from node 0. -/
def node (w0 w1 : Word) (st : NodeSt) (ended : Bool) : GNode := ⟨w0, w1, 0, [], st, none, false, ended⟩
def w0Of (kind cmask dsrc : Nat) : Word := BitVec.ofNat 64 (kind * 2 ^ 60 + cmask * 2 ^ 56 + dsrc * 2 ^ 55 + 0xFFFF * 2 ^ 14)
def task (st : NodeSt) (ended : Bool) (edges : Nat) : GNode := node (w0Of 0 15 0) (BitVec.ofNat 64 (edges * 2 ^ 16)) st ended
def graph (n : GNode) (es : List EdgeSt) : Prompter :=
  { Prompter.empty with nodes := [n, node (w0Of 1 0 1) 0 .pending false], edges := es.map fun e => ⟨0x01000000, e⟩ }
theorem meets_NodesAndConditionWords_nodes : ∀ es ∈ [[], [EdgeSt.undecided], [.live], [.dead], [.live, .dead], [.dead, .dead], [.undecided, .live]],
    let pr := graph (task .pending false es.length) es
    pr.nodes[0]? = some (task .pending false es.length) ∧ (task .pending false es.length).st = .pending ∧
    (pr.orderIn (task .pending false es.length)).map (fun e => e.2.st) = es := by decide +kernel
theorem meets_NodesAndConditionWords_running :
    (task .running true 0).st = .running ∧ (task .running true 0).ended = true ∧ condwDone PadNet.empty 0 0 = true ∧ (task .running false 0).ended = false ∧
    (graph (task .running true 0) []).nodes[0]? = some (task .running true 0) := by decide +kernel
/-- A node of a kind, with its dsrc, stage mask, body length and first dependence. -/
def nodeOf (kind dsrc smask blen edges : Nat) (st : NodeSt) (dec : Option Bool) (again : Bool) : GNode :=
  ⟨BitVec.ofNat 64 (kind * 2 ^ 60 + 15 * 2 ^ 56 + dsrc * 2 ^ 55 + smask * 2 ^ 14 + blen * 2 ^ 6), BitVec.ofNat 64 (edges * 2 ^ 16), 0, [], st, dec, again, false⟩
/-- A pending node with an edit that waits, and what a ready node is: a task of the stage or of another, a join, a node that reads a
condition bit, with each outcome, and one that waits for a token; and a while node tested true, a skipped one and one that is complete. -/
theorem meets_NodesAndConditionWords_ready :
    (let n := { task .pending false 0 with edit := [(3, 0, 0, 0)] }
     (graph n []).nodes[0]? = some n ∧ n.st = .pending ∧ n.edit = [] ++ [(3, 0, 0, 0)]) ∧
    (∀ x ∈ [(0, 0, 1, none), (0, 0, 2, none), (3, 0, 2, none), (1, 0, 1, some true), (1, 0, 1, some false), (1, 0, 2, none), (2, 0, 1, some true),
        (2, 0, 1, some false), (2, 0, 2, none), (1, 1, 1, none), (2, 1, 1, none), (2, 1, 2, none)],
      let n := nodeOf x.1 x.2.1 x.2.2.1 0 0 .ready x.2.2.2 false
      (graph n []).nodes[0]? = some n ∧ n.st = .ready ∧ n.kind = x.1 ∧ n.dsrc = (x.2.1 == 1) ∧ n.smask.testBit 0 = (x.2.2.1 == 1) ∧ n.dec = x.2.2.2) ∧
    (nodeOf 2 0 1 1 0 .complete none true).again = true ∧ (nodeOf 2 0 1 1 0 .complete none false).again = false ∧
    (nodeOf 2 0 1 0 0 .skipped none false).st = .skipped := by decide +kernel
/-- Node 0 waits for a token; node 1 is the target of edges from it, of a polarity: none, one, or both. -/
def deciding1 (kind : Nat) (es : List (BitVec 32)) (tokens : List (Nat × Nat)) : Prompter :=
  { Prompter.empty with
    nodes := [nodeOf kind 1 1 0 0 .ready none false, nodeOf 0 0 1 0 es.length .pending none false], edges := es.map fun e => ⟨e, .undecided⟩, tokens := tokens }
theorem meets_NodesAndConditionWords_token : ∀ kind ∈ [1, 2], ∀ x ∈ [([], []), ([], [(0, 1)]), ([0], [(0, 1)]), ([0x200000], [(5, 1), (0, 1), (0, 7)]), ([0, 0x200000], [(0, 1)])],
    let pr := deciding1 kind x.1 x.2
    let n := nodeOf kind 1 1 0 0 .ready none false
    pr.nodes[0]? = some n ∧ n.st = .ready ∧ n.kind = kind ∧ n.dsrc = true ∧ n.smask.testBit 0 = true ∧
    (x.2 = [] → ∀ y ∈ pr.tokens, y.1 ≠ 0) ∧ (x.2 ≠ [] → pr.tokens.find? (fun y => y.1 == 0) = some (0, 1)) ∧
    (pr.orderIn (nodeOf 0 0 1 0 x.1.length .pending none false)).map (fun e => (e.1, e.2.from_)) = (List.range x.1.length).map (fun k => (k, 0)) ∧
    pr.nodes[1]? = some (nodeOf 0 0 1 0 x.1.length .pending none false) := by decide +kernel
/-- The body of a while node, over or not: a node in it is running, complete or skipped, or is itself a while node tested true. -/
theorem meets_NodesAndConditionWords_body : ∀ x ∈ [(nodeOf 0 0 1 0 0 .running none false, false), (nodeOf 0 0 1 0 0 .complete none false, true),
      (nodeOf 0 0 1 0 0 .skipped none false, true), (nodeOf 2 0 1 0 0 .complete none true, false)],
    let n := nodeOf 2 0 1 1 0 .complete none true
    let pr := { Prompter.empty with nodes := [n, x.1] }
    pr.nodes[0]? = some n ∧ n.st = .complete ∧ n.kind = 2 ∧ n.again = true ∧ n.blen = 1 ∧ pr.nodes[1]? = some x.1 ∧
    (decide (x.1.st = .skipped ∨ (x.1.st = .complete ∧ ¬(x.1.kind = 2 ∧ x.1.again = true))) = x.2) := by decide +kernel
/-- A ready task whose lowest idle context is 1; the same with a dependence source that has not come to an end, or has; and a prompter that
is halted, a stop request, and no context that is idle. -/
def dispatching (dep : NodeSt) (f : Tile → Tile) : State :=
  State.reset.modTile 0 fun T => f ({ T.modCtx 0 fun k => { k with sel := .ready } with
    pr := { Prompter.empty with nodes := [task .ready false 1, nodeOf 3 0 1 0 0 dep none false], edges := [⟨0x01400000, .undecided⟩] } })
theorem meets_NodesAndConditionWords_dispatch : ∀ dep ∈ [NodeSt.skipped, .running],
    let s := dispatching dep id
    let T := s.tile 0
    let r := T.pr.step (s.net 0) (s.rank 0) T.stage.toNat
    let n := task .ready false 1
    r.2 = 0 ∧ r.1.halted = false ∧ T.stopReq = false ∧ r.1.nodes[0]? = some n ∧ n.kind = 0 ∧ n.smask.testBit T.stage.toNat = true ∧
    n.cmask.testBit 1 = true ∧ (T.ctx 1).sel = .idle ∧ (T.ctx 1).flight = [] ∧ (T.ctx 0).sel ≠ .idle ∧
    (r.1.incoming n).map (fun e => (e.2.dependence, e.2.from_)) = [(true, 1)] ∧
    (r.1.nodes[1]?.map fun g => decide (g.st ≠ .complete ∧ g.st ≠ .skipped)) = some (dep == .running) := by decide +kernel
theorem meets_NodesAndConditionWords_idle :
    (∀ x ∈ [(true, false), (false, true)],
      let s := dispatching .running fun T => { T with stopReq := x.2, pr := { T.pr with halted := x.1 } }
      let r := (s.tile 0).pr.step (s.net 0) (s.rank 0) (s.tile 0).stage.toNat
      r.2 = 0 ∧ (r.1.halted = true ∨ (s.tile 0).stopReq = true)) ∧
    (let s := dispatching .running fun T => { T with ctxs := T.ctxs.map fun k => { k with sel := .ready } }
     let r := (s.tile 0).pr.step (s.net 0) (s.rank 0) (s.tile 0).stage.toNat
     r.2 = 0 ∧ ∀ c, ((s.tile 0).ctx c).sel ≠ .idle) := by decide +kernel
def networked (n : PadNet) (f : Tile → Tile) : State := running { pad1 with net := n } f
theorem running_pad (P : Paddock) (f : Tile → Tile) (hf : ∀ T, (f T).pad = T.pad) (t : TileId) :
    ((running P f).tile t).pad = if t = 0 then some 1 else none := by
  have h : (running P f).tile t = (State.reset.modTile 0 (fun T => f { T with pad := some 1, mem := { T.mem with bnd := ⟨true, 1, 0, 0, 1, 1, 0⟩ } })).tile t := rfl
  rw [h, State.tile_modTile]
  split
  · simp [hf]
  · simp [State.reset, State.tile, Tile.reset]
theorem running_padTiles (P : Paddock) (f : Tile → Tile) (hf : ∀ T, (f T).pad = T.pad) : (running P f).padTiles 1 = 0 :: [] := by
  have h : (fun t => ((running P f).tile t).pad == some 1) = fun t : TileId => t == 0 := by
    funext t; rw [running_pad P f hf]; by_cases e : t = 0 <;> simp [e]
  rw [State.padTiles, h]
  decide +kernel
theorem meets_NodesAndConditionWords_words : ∀ o ∈ [CondwOp.set, .or, .clr],
    let n : PadNet := { PadNet.empty with condw := [⟨0, 0, o, 63, 5⟩] }
    (networked n id).pad? 1 = some { pad1 with net := n } ∧ n.condw[0]? = some ⟨0, 0, o, 63, 5⟩ := by decide +kernel
theorem meets_NodesAndConditionWords_tokens : ∀ p ∈ [(1, true), (0, false)],
    let n : PadNet := { PadNet.empty with tokens := [(p.1, 7)] }
    let s := networked n fun T => { T with pr := graph (task .pending false 0) [] }
    s.pad? 1 = some { pad1 with net := n } ∧ n.tokens = (p.1, 7) :: [] ∧
    (match (s.tile 0).pr.nodes[p.1]? with | some g => (g.kind == 1 || g.kind == 2) && g.dsrc | none => false) = p.2 ∧
    (s.tile 0).pr.tokens.length < 16 := by decide +kernel

def e5Entry (w : E5Work) (sent : Bool) : E5Entry := ⟨4, 0, 0, w, sent, 4, false⟩
def e5Works : List E5Work :=
  [.bar 3 .device 1, .netred 7 .f32 .add false false 1 5 1, .netbc 0 .i8 1 5 0 1, .scene, .redopen 1 0 128 true 0, .redclose 1 0]
theorem meets_CollectivesAtWork_send : ∀ w ∈ e5Works,
    let s := networked PadNet.empty fun T => { T with e5 := [e5Entry w false] }
    let T := s.tile 0
    s.pad? 1 = some { pad1 with net := PadNet.empty } ∧ T.pad = some 1 ∧ T.e5.find? (fun x => !x.sent) = some (e5Entry w false) ∧
    T.fenced 5 4 = false ∧ T.e5Ready (e5Entry w false) = true := by decide +kernel
theorem meets_CollectivesAtWork_arrival : ∀ w ∈ e5Works.take 3,
    let m : NetMsg := ⟨0, 4, w⟩
    let key := (netKey w).getD (.bar 0)
    let first : PadNet := { PadNet.empty with arrivals := [m] }
    let wide : E5Work := match w with | .netred g t o u f d v _ => .netred g t o u f d v 2 | .netbc g t d v r _ => .netbc g t d v r 2 | x => x
    let second : PadNet := { PadNet.empty with arrivals := [⟨0, 4, wide⟩], gathered := [⟨key, [⟨0, 3, wide⟩]⟩] }
    first.arrivals[0]? = some m ∧ netKey w = some key ∧ (∀ g ∈ first.gathered ++ [⟨key, [m]⟩], g.rootless = false) ∧
    (∀ g ∈ first.gathered, g.key = key → g.full = true) ∧
    netKey wide = some key ∧ second.gathered = [] ++ ⟨key, [⟨0, 3, wide⟩]⟩ :: [] ∧ (⟨key, [⟨0, 3, wide⟩]⟩ : Gathered).full = false ∧
    disagrees wide wide = none ∧ (∀ g ∈ [(⟨key, [⟨0, 3, wide⟩, ⟨0, 4, wide⟩]⟩ : Gathered)], g.rootless = false) ∧ (∀ K ∈ (networked second id).pads, K.pid = 1 → K = { pad1 with net := second }) := by decide +kernel
def barrier3 : Gathered := ⟨.bar 3, [⟨0, 4, .bar 3 .device 1⟩]⟩
theorem meets_CollectivesAtWork_barrier :
    let n : PadNet := { PadNet.empty with gathered := [barrier3] }
    let s := networked n id
    n.gathered.find? (fun x => x.key = .bar 3) = some barrier3 ∧ barrier3.entries.map NetMsg.work = .bar 3 .device 1 :: [] ∧
    (∀ x : TileId, (s.tile x).pad = some 1 → (s.tile x).inStages 1 = true → ∃ m ∈ barrier3.entries, m.rank = s.rank x) ∧
    (∀ m ∈ n.arrivals, netKey m.work ≠ some (.bar 3)) := by
  refine ⟨by decide, rfl, fun x h _ => ?_, by simp [PadNet.empty]⟩
  rw [networked, running_pad _ id fun _ => rfl] at h
  by_cases e : x = 0
  · subst e; exact ⟨_, List.mem_singleton_self _, by decide +kernel⟩
  · simp [e] at h
def sum7 : E5Work := .netred 7 .f32 .add false false 1 5 1
def cast0 : E5Work := .netbc 0 .i8 1 5 0 1
theorem meets_CollectivesAtWork_results :
    let n : PadNet := { PadNet.empty with gathered := [⟨.red 7, [⟨0, 4, sum7⟩]⟩, ⟨.bc 0, [⟨0, 4, cast0⟩]⟩] }
    let s := networked n fun T => { T with e5 := [e5Entry sum7 true] }
    n.gathered.find? (fun x => x.key = .red 7 && x.full) = some ⟨.red 7, [⟨0, 4, sum7⟩]⟩ ∧
    (s.tile 0).e5.find? (fun x => x.serial = 4) = some (e5Entry sum7 true) ∧
    n.gathered.find? (fun x => x.key = .bc 0 && x.full) = some ⟨.bc 0, [⟨0, 4, cast0⟩]⟩ ∧ netbcOf cast0 = some (1, 5, 0) := by decide +kernel
/-- Two contributions, for the exact sum and for the extremes: lanes of 1 and -1, whose sum is 0, a NaN, and infinities of both signs. -/
theorem meets_CollectivesAtWork_values :
    (fp16.decode 0x3C00).rat + (fp16.decode 0xBC00).rat = 0 ∧ (fp16.decode 0x3C00).rat + (fp16.decode 0x3C00).rat ≠ 0 ∧ (fp16.decode 0x3C00).isFin = true ∧
    (fp16.decode 0x7E00).isNan = true ∧ fp16.decode 0x7C00 = .inf false ∧ fp16.decode 0xFC00 = .inf true := by decide +kernel
theorem meets_CollectivesAtWork_reduction : netredOf sum7 = some (.f32, .add, false, false, 1, 5) := rfl
def window0 : RedWindow := ⟨1, 0, 128, true, 0, [5], [], false⟩
theorem meets_CollectivesAtWork_windows :
    let s := networked PadNet.empty fun T => { T with e5 := [e5Entry (.redclose 1 0) true] }
    let u := { s with mem := { fixedTable with wins := [window0] } }
    ((networked PadNet.empty fun T => { T with e5 := [e5Entry (.redopen 1 0 128 true 0) true] }).tile 0).e5.find? (fun x => x.serial = 4 && x.sent)
      = some (e5Entry (.redopen 1 0 128 true 0) true) ∧
    (s.tile 0).e5.find? (fun x => x.serial = 4 && x.sent) = some (e5Entry (.redclose 1 0) true) ∧ (1 : Fin 32) ≠ 0 ∧
    s.mem.wins.find? (fun w => w.owner = (s.tile 0).mem.bnd.owner && w.va = 0) = none ∧
    u.mem.wins.find? (fun w => w.owner = (u.tile 0).mem.bnd.owner && w.va = 0) = some window0 ∧ u.mem.hostHeld = [] := by decide +kernel
/-- REDOPEN's four statuses: no leaf, a range that leaves the address space, a leaf without a right; a page of host memory; a window that
lies there, eight of the owner, no storage left; and none of these. -/
theorem meets_CollectivesAtWork_opens :
    fixedTable.walk 1 (2 ^ 42) = .absent ∧ 2 ^ 55 < (2 ^ 55 - 128) + 256 ∧ (0x010000000005000B : Nat).testBit 2 = false ∧
    hostTable.walk 1 0 = .leaf 0x010080000000000F false 0x30000 ∧ hostTable.place (hostTable.eff (2 ^ 47)) ≠ .device ∧
    fixedTable.walk 1 0 = .leaf 0x010000000005000F false 0x30000 ∧ (0x010000000005000F : Nat).testBit 2 = true ∧ (0x010000000005000F : Nat).testBit 3 = true ∧
    fixedTable.place (fixedTable.eff 0x50000) = .device ∧ (0 + 128 - 1) / 2 ^ 16 + 1 - 0 / 2 ^ 16 = 1 ∧ window0.pages[0]? = some 5 ∧
    window0.va ≤ (window0.va / 2 ^ 16 + 0) * 2 ^ 16 + 0 ∧ (window0.va / 2 ^ 16 + 0) * 2 ^ 16 + 0 < window0.va + window0.len ∧
    8 ≤ ((List.replicate 8 window0).filter fun x => x.owner = 1).length ∧
    2 ^ 24 < ((List.replicate 2 { window0 with len := 2 ^ 20 }).map fun x => (if x.bf then 8 else 4) * x.len).sum + (if true then 8 else 4) * 128 ∧
    fixedTable.wins = [] := by decide +kernel
/-- The window on the page in frame 5 is closed: its range and its elements, a poisoned one, one that is zero and one that is not. -/
theorem meets_CollectivesAtWork_closes :
    let m := { fixedTable with wins := [window0] }
    Memory.wf m = true ∧ Sparse.wf 0 m.tags = true ∧ window0.va % 128 = 0 ∧ window0.len % 128 = 0 ∧ 0 < window0.len ∧ window0.pages.Nodup ∧
    window0.pages.length = (0 + window0.len - 1) / 2 ^ 16 + 1 - 0 / 2 ^ 16 ∧ (∀ g ∈ window0.pages, m.place (g * 2 ^ 16) = .device) ∧
    (m.wins.Pairwise fun w x => w.owner ≠ x.owner ∨ w.va ≠ x.va) ∧ (∀ x ∈ m.wins, x = window0) ∧ m.eff 0x60000 = 0x60000 ∧
    RedElem.zero.poison = false ∧ RedElem.zero.acc = 0 ∧ ({ RedElem.zero with acc := 1 } : RedElem).acc ≠ 0 ∧ ({ RedElem.zero with poison := true } : RedElem).poison = true := by
  decide +kernel
theorem meets_CollectivesAtWork_closes_table : ∀ f < 2 ^ 23, (fixedTable.fot.toNat + f) / 2 ^ 16 ≠ 5 := by
  intro f hf
  simp [fixedTable, leafTable, tableBytes]; omega
/-- Two arrivals that differ: in the stages or the scope of a barrier, in n, in the operation, in the type or the root of a broadcast; and a
broadcast of one whose root is not there. -/
theorem meets_CollectivesAtWork_differ : ∀ x ∈ [(E5Work.bar 3 .device 1, E5Work.bar 3 .device 2), (.bar 3 .device 1, .bar 3 .system 1),
      (.netred 7 .f32 .add false false 1 5 2, .netred 7 .f32 .add false false 1 5 3), (.netred 7 .f32 .add false false 1 5 2, .netred 7 .f16 .add false false 1 5 2),
      (.netbc 0 .i8 1 5 0 2, .netbc 0 .i8 1 5 0 3), (.netbc 0 .i8 1 5 0 2, .netbc 0 .i16 1 5 0 2), (.netbc 0 .i8 1 5 0 2, .netbc 0 .i8 1 5 1 2)],
    let key := (netKey x.1).getD (.bar 0)
    let n : PadNet := { PadNet.empty with arrivals := [⟨0, 4, x.2⟩], gathered := [⟨key, [⟨0, 3, x.1⟩]⟩] }
    n.arrivals[0]? = some ⟨0, 4, x.2⟩ ∧ netKey x.2 = some key ∧ n.gathered = [] ++ ⟨key, [⟨0, 3, x.1⟩]⟩ :: [] ∧ (⟨key, [⟨0, 3, x.1⟩]⟩ : Gathered).full = false ∧ x.1 ≠ x.2 ∧
    ((networked n id).pad? 1).map (·.image) = some none := by decide +kernel
theorem meets_CollectivesAtWork_rootless :
    let m : NetMsg := ⟨0, 4, .netbc 0 .i8 1 5 3 1⟩
    let n : PadNet := { PadNet.empty with arrivals := [m] }
    n.arrivals[0]? = some m ∧ netKey m.work = some (.bc 0) ∧ n.gathered = [] ∧ m.rank ≠ 3 ∧ 1 = ([] : List NetMsg).length + 1 ∧
    (let T := (networked n fun T => { T with e5 := [e5Entry m.work true] }).tile 0
     T.e5.find? (fun x => x.serial = 4) = some (e5Entry m.work true) ∧ (T.ctx 0).records.length + 1 ≤ 16) := by decide +kernel
theorem meets_CollectivesAtWork_swap : (networked { PadNet.empty with scenes := [⟨0, 4, .scene⟩] } id).mayswap 1 = true := by
  unfold State.mayswap State.allArrived networked
  rw [running_padTiles _ id fun _ => rfl]
  decide +kernel

/-- Slot 0 bound for owner 1, its ring at virtual address 0 of the table above, awake. -/
def slot0 : QueueSlot := { QueueSlot.reset with bound := true, owner := 1, lsize := 4, cb := 0x8000, wake := true }
def packetMem (kind : Nat) : MemSys :=
  { fixedTable with bytes := Sparse.put 0 fixedTable.bytes 0x50000 (BitVec.ofNat 8 kind), tags := [(0x50000 / 128, 1)] }
def queued (q : QueueSlot) (m : MemSys) (pads : List Paddock) : State :=
  { State.reset with slots := State.reset.slots.set 0 q, mem := m, pads := pads, dev := { State.reset.dev with ready := true } }
def words (kind : Nat) (w2 w3 : Nat) : List Word := BitVec.ofNat 64 kind :: 0 :: BitVec.ofNat 64 w2 :: BitVec.ofNat 64 w3 :: List.replicate 12 0
def id0 : QueueId := ⟨1, 0x8000, 0⟩
theorem meets_PacketsAreTakenAndBegin_notify :
    let s := queued slot0 fixedTable []
    s.dev.ready = true ∧ s.pageSlot 0 0 = some 0 ∧ (s.fns[(s.slots[(0 : SlotId)]).fnId]).resetting = false := by decide +kernel
/-- The slot's thread free, its packet at a ring index that translates or one that does not, or in a buffer. -/
theorem meets_PacketsAreTakenAndBegin_free : ∀ x ∈ [(slot0, [], true), ({ slot0 with base := 2 ^ 42 }, [], false),
      ({ slot0 with wake := false }, [(⟨id0, 1, 0, 1, 3, 0⟩ : Buffer)], true)],
    let s := { queued x.1 (packetMem 7) [] with buffers := x.2.1 }
    let q := s.slots[(0 : SlotId)]
    q.bound = true ∧ q.halted = false ∧ q.taken = none ∧ (s.drovers[(0 : SlotId)]).halted = false ∧ (s.fns[q.fnId]).resetting = false ∧
    (∀ y ∈ s.slots.toList.flatMap fun x => x.running, y.queue = id0 → pkKind y.words = 3 → y.opened = true) ∧
    (s.buffers.find? fun b => b.queue == ⟨q.owner, q.cb, q.base⟩ && b.left != 0) = x.2.1.head? ∧ (x.2.1 = [] → q.wake = true) ∧
    (s.mem.mapped q.owner true false (if x.2.1 = [] then q.base.toNat + q.next % 2 ^ q.lsize.toNat * 128 else 0) 128 = x.2.2) := by decide +kernel
/-- A field of a packet. -/
def field (ws : List Word) (off len : Nat) : Nat := (ws.getD (off / 8) 0).toNat / 2 ^ (8 * (off % 8)) % 2 ^ (8 * len)
def cleanWords (ws : List Word) (body : Nat) : Bool :=
  decide (field ws 0 8 / 2 ^ 14 % 4 = 0 ∧ field ws 0 8 / 2 ^ 28 % 16 = 0 ∧ field ws 0 8 / 2 ^ 9 % 4 ≠ 3 ∧ field ws 0 8 / 2 ^ 11 % 4 ≠ 3) &&
    (List.range 128).all fun b => decide (b < body) || field ws b 1 == 0
/-- Every kind of packet that is clean, a kind beyond them, a bit that is reserved, and an empty header. -/
theorem meets_PacketsAreTakenAndBegin_packets :
    (∀ x ∈ [(1, 0x60), (2, 0x1C), (3, 0x1C), (4, 0x20), (5, 0x20), (6, 0x10), (7, 0x10)],
      field (words x.1 0 0) 0 1 = x.1 ∧ cleanWords (words x.1 0 0) x.2 = true) ∧
    field (words 8 0 0) 0 1 = 8 ∧ field (words 0 0 0) 0 1 = 0 ∧ field (words 0x4007 0 0) 0 1 = 7 ∧ cleanWords (words 0x4007 0 0) 0x10 = false := by
  decide +kernel
theorem meets_PacketsAreTakenAndBegin_memory : (packetMem 7).readVa 1 0 128 = 7 :: List.replicate 127 0 := by decide +kernel
/-- Addresses that pass, that are misaligned, and that do not translate; launch fields that R82's step 0 refuses for each reason and passes. -/
theorem meets_PacketsAreTakenAndBegin_checks :
    fixedTable.mapped 1 true true 8 8 = true ∧ 8 % 8 = 0 ∧ 4 % 8 ≠ 0 ∧ 2 ^ 42 % 8 = 0 ∧ fixedTable.mapped 1 true true (2 ^ 42) 8 = false ∧
    fixedTable.mapped 1 false true 0 128 = true ∧ 0 < 1 ∧ 24 < 25 ∧ 16 < 17 ∧ 256 < 257 ∧ 64 < 65 ∧ 65536 < 65537 ∧ 4 % 8 ≠ 0 := by decide +kernel
theorem meets_PacketsAreTakenAndBegin_begin : ∀ kind ∈ [1, 4, 7], ∀ level ∈ [0, 1],
    let t : Taken := ⟨0, id0, words kind 0 0, 0, level, if level = 0 then none else some 9, none, 0⟩
    let q := { slot0 with taken := some t }
    let s := queued q fixedTable []
    (s.slots[(0 : SlotId)]).taken = some t ∧ q.halted = false ∧ (∀ y ∈ s.slots.toList.flatMap fun x => x.running, y.queue ≠ t.queue) ∧
    (∀ y ∈ q.running, y.k ≠ t.k) ∧ t.refused = none ∧ pkKind t.words = kind ∧ pkBarrier t.words = false ∧
    (s.pads.find? fun p => p.k = t.k && p.phase = .loading) = none ∧
    ([{ pad1 with phase := .loading }].find? fun p => p.k = t.k && p.phase = .loading).map (·.pid) = some 1 := by decide +kernel
theorem meets_PacketsAreTakenAndBegin_resetting : ∀ b ∈ [false, true],
    let s := queued slot0 fixedTable []
    (({ s with fns := s.fns.set 0 { Fn.reset with resetting := b } } : State).fns[(s.slots[(0 : SlotId)]).fnId]).resetting = b := by decide +kernel
/-- Edits kept by earlier packets stand before packet 3, those of later ones behind it. -/
theorem meets_PacketsAreTakenAndBegin_kept :
    let e (k : Nat) : KeptEdit := ⟨k, id0, 0, []⟩
    [e 1, e 2, e 4] = [e 1, e 2] ++ [e 4] ∧ (∀ y ∈ [e 1, e 2], y.k ≤ 3) ∧ (∀ y, [e 4].head? = some y → 3 < y.k) := by
  refine ⟨rfl, by decide, fun y h => ?_⟩
  cases h
  decide
/-- A packet with its barrier bit set behind another of its queue. -/
theorem meets_PacketsAreTakenAndBegin_barrier :
    pkBarrier (words 0x107 0 0) = true ∧ (3 : Nat) ∉ ancestors [⟨3, id0, 0, words 7 0 0, 0, 0, none, none, false, false, false⟩] 4 none := by decide +kernel
def run0 (kind w2 w3 : Nat) (target : Option Nat) : Running := ⟨3, id0, 0, words kind w2 w3, 0, 0, none, target, false, false, false⟩
def runs0 (r : Running) (pads : List Paddock) : State := queued { slot0 with running := [r] } fixedTable pads
theorem meets_PacketsAreTakenAndBegin_work : ∀ p ∈ [(2, 0, 16 * 65536), (2, 0, 65536), (3, 0, 1), (4, 0, 0), (4, 8, 1), (5, 8, 1), (6, 0, 0), (7, 0, 0)],
    ∀ look ∈ [false, true],
    let r := { run0 p.1 p.2.1 p.2.2 none with look := look }
    let s := runs0 r []
    (s.slots[(0 : SlotId)]).running.find? (fun y => y.k = 3 && pkKind y.words == p.1 && !y.done) = some r ∧ r.opened = false ∧ r.target = none ∧ r.look = look ∧
    r.queue = id0 ∧ s.mem.mapped r.owner true true p.2.1 8 = true ∧ s.mem.mapped r.owner true false p.2.1 8 = true ∧ s.pads = [] ∧
    s.mem.mapped r.owner true true (2 ^ 42) 8 = false := by decide +kernel
theorem meets_PacketsAreTakenAndBegin_edit : ∀ m ∈ [1, 16],
    pkF (words 2 0 (m * 65536)) 0x1A 2 = m ∧ (runs0 (run0 2 0 (m * 65536) none) []).mem.mapped 1 true false 0 (32 * m) = true := by decide +kernel
/-- A GRAPH_EDIT of node 0, a join, and the launch of its queue and tag, running, loading, or curtained; what it reads is a join node
(accepted), zeros, which are no node, or one beyond the last (both refused). -/
def editing (P : Paddock) (first : Nat) (node : Bool) : State :=
  let m := { fixedTable with tags := [(0x50000 / 128, 1)], bytes := if node then Sparse.puts 0 fixedTable.bytes [(0x50001, 0x40), (0x50007, 0x30)] else fixedTable.bytes }
  { queued { slot0 with running := [run0 2 0 (65536 + first) none, { run0 1 0 0 (some 1) with k := 1 }] } m [P] with
    tiles := (State.reset.modTile 0 fun T => { T with pr := { Prompter.empty with nodes := [GNode.of 0x3000000000004000 0 0] } }).tiles }
theorem meets_PacketsAreTakenAndBegin_running : ∀ x ∈ [(Phase.running, 0, true, true), (.running, 0, false, false), (.running, 1, true, false), (.loading, 0, true, true)],
    let P := { pad1 with phase := x.1 }
    let s := editing P x.2.1 x.2.2.1
    let q := s.slots[(0 : SlotId)]
    let r := run0 2 0 (65536 + x.2.1) none
    q.running.find? (fun y => y.k = 3 && pkKind y.words == 2 && !y.done) = some r ∧ pkF r.words 0x1A 2 = 1 ∧ pkF r.words 0x18 2 = x.2.1 ∧
    s.mem.mapped 1 true false 0 32 = true ∧ (s.pads.map (·.pid)).Nodup ∧ P.tiles.Nodup ∧ P.image = none ∧ P ∈ s.pads ∧
    P.queue = r.queue ∧ pkTag P.pkt = pkTag r.words ∧ P.killed = none ∧ (q.running.any fun y => y.target == some 1 && pkKind y.words == 1) = true ∧
    (let l := (List.range 4).map fun j => BitVec.ofNat 64 (ofBytes ((((editing P x.2.1 x.2.2.1).mem.readVa 1 0 32).drop (8 * j)).take 8))
     decide (x.2.1 + 1 ≤ (s.tile 0).pr.nodes.length ∧ l.getD 3 0 = 0 ∧ graphOk [GNode.of (l.getD 0 0) (l.getD 1 0) (l.getD 2 0)] [] P.code.msize = true) = x.2.2.2) := by
  decide +kernel
theorem meets_PacketsAreTakenAndBegin_kill :
    let older := { run0 1 0 0 (some 1) with k := 1 }
    let s := queued { slot0 with running := [run0 6 0 0 none, older, { run0 1 0 0 (some 2) with k := 2 }] } fixedTable [pad1, { pad1 with pid := 2, k := 2 }]
    (∀ p ∈ s.pads, p.queue = id0 ∧ pkTag p.pkt = 0 ∧ ∃ y ∈ s.slots.toList.flatMap fun x => x.running, y.target = some p.pid ∧ pkKind y.words = 1) ∧
    pad1 ∈ s.pads ∧ (∀ y ∈ s.pads, y ≠ pad1 → pad1.k < y.k) := by decide +kernel
/-- Each way in which a packet is done: a launch gone, a buffer run empty, and any other's own mark. -/
theorem meets_PacketsAreTakenAndBegin_completion :
    (∀ w1 ∈ [0, 0x10],
      let r : Running := { run0 7 0 0 none with words := BitVec.ofNat 64 7 :: BitVec.ofNat 64 w1 :: List.replicate 14 0, done := true }
      let s := runs0 r []
      (s.slots[(0 : SlotId)]).running.find? (fun y => y.k = 3) = some r ∧ pkKind r.words = 7 ∧ r.done = true ∧ field r.words 8 8 = w1 ∧
      s.mem.mapped r.owner true true 0x10 8 = true ∧ pkMsi r.words = false) ∧
    (let r := run0 1 0 0 (some 1)
     (runs0 r []).slots[(0 : SlotId)].running.find? (fun y => y.k = 3) = some r ∧ pkKind r.words = 1 ∧ ∀ x ∈ (runs0 r []).pads, x.pid ≠ 1) ∧
    (let r := { run0 3 0 1 none with opened := true }
     let s := { runs0 r [] with buffers := [⟨id0, 3, 128, 0, 1, 0⟩] }
     s.slots[(0 : SlotId)].running.find? (fun y => y.k = 3) = some r ∧ pkKind r.words = 3 ∧ (∀ b ∈ s.buffers, b.k = r.k → b.left = 0) ∧
     (∀ y ∈ s.slots.toList.flatMap fun x => x.running, y.parent ≠ some r.k) ∧ ∀ i : SlotId, (s.slots[i]).taken = none) := by decide +kernel

/-! Launches. -/

def packet1 : List Word := BitVec.ofNat 64 1 :: 0 :: 0 :: 0 :: 0x101 :: List.replicate 11 0
theorem meets_LaunchesRunAndEnd_origin :
    findOrigin (fun _ => true) 24 16 = some (0, 0) ∧ findOrigin (fun t => 25 ≤ t.val) 2 1 = some (1, 1) := by decide +kernel
def waiter0 : Waiter := ⟨0, 0, 0, 0, 0, 1, 1, 0, none⟩
theorem meets_LaunchesRunAndEnd_placement :
    let t : Taken := ⟨0, id0, packet1, 0, 0, none, none, 0⟩
    let s := queued { slot0 with taken := some t } fixedTable []
    (s.countUse 5).waiters = [waiter0] ∧ waiter0.pad = none ∧ (s.slots[waiter0.slot]).taken = some t ∧ t.parent = none ∧
    findOrigin s.tileFree waiter0.cols waiter0.rows = some (0, 0) := by decide +kernel
theorem meets_LaunchesRunAndEnd_refused :
    let P := { pad1 with phase := .loading, pkt := (packet1.set 2 (BitVec.ofNat 64 (2 ^ 42))) }
    let s := queued { slot0 with running := [run0 1 0 0 (some 1)] } fixedTable [P]
    (s.pad? 1).map (·.phase) = some .loading ∧ (s.slots[P.slot]).running.any (fun r => r.target == some 1) = true ∧
    (s.holdHeader P).mem.mapped P.owner true false (pkF P.pkt 0x10 8) 1 = false := by decide +kernel
/-- The table of owner 1 with page 0 in frame 5, and there a container: an empty code segment, and a graph of one join
node (R7, R8, R16, R17). -/
def container : List (Nat × Byte) :=
  [(0x8005, 1), (0x10000, 1), (0x10002, 2), (0x20000, 1), (0x20002, 3), (0x30000, 0x0F), (0x30002, 5), (0x30007, 1),
   (0x50000, 0x46), (0x50001, 0x4E), (0x50002, 0x43), (0x50003, 0x4C), (0x50004, 1), (0x50008, 2), (0x50010, 0xF0), (0x50011, 1),
   (0x50080, 1), (0x50081, 1), (0x50088, 0x80), (0x50089, 1), (0x50100, 4), (0x50108, 0xC0), (0x50109, 1), (0x50110, 48), (0x50120, 48),
   (0x501C0, 0x47), (0x501C1, 0x52), (0x501C2, 0x50), (0x501C3, 0x48), (0x501C4, 1), (0x501D1, 0x40), (0x501D7, 0x30)]
def loadable : MemSys :=
  { MemSys.reset with
    fot := 0x8000, bytes := container, owners := MemSys.reset.owners.set 1 ⟨true, 1, 0⟩,
    doms := MemSys.reset.doms.set 0 { Domain.reset with set := 1 } }
def toLoad : Paddock := { pad1 with phase := .loading, nscene := 0, nent := 0, pkt := packet1 }
def atLoad : State :=
  { State.reset with mem := loadable, pads := [toLoad], slots := State.reset.slots.set 0 { slot0 with running := [run0 1 0 0 (some 1)] } }
theorem loadable_leaf : loadable.walk 1 0 = .leaf 0x010000000005000F false 0x30000 := by decide +kernel
theorem loadable_walk (va : Nat) (h : va < 2 ^ 16) : loadable.walk 1 va = .leaf 0x010000000005000F false 0x30000 := by
  rw [← loadable_leaf]
  simp only [MemSys.walk, fld, show ¬ 2 ^ 55 ≤ va by omega, show va / 2 ^ 42 = 0 by omega, show va / 2 ^ 29 = 0 by omega,
    show va / 2 ^ 16 = 0 by omega]
  rfl
theorem loadable_byte (va : Nat) (h : va < 2 ^ 16) : loadable.translate 1 true false va = some (0x50000 + va) := by
  simp only [MemSys.translate, loadable_walk va h]
  exact congrArg some (show 5 * 2 ^ 16 + va % 2 ^ 16 = 0x50000 + va by omega)

def bytesAt (va n : Nat) : List Byte := tab n fun j => Sparse.get 0 container (0x50000 + (va + j))
theorem loadable_read (va n : Nat) (h : va + n ≤ 2 ^ 16) : loadable.readVa 1 va n = bytesAt va n := by
  refine List.map_congr_left fun j hj => ?_
  have hj := List.mem_range.mp hj
  have b : va + j < 2 ^ 16 := by omega
  have d : loadable.place (0x50000 + (va + j)) = .device := if_pos (show 0x50000 + (va + j) < 2 ^ 39 - 2 ^ 33 * 0 by omega)
  have f : (0x50000 + (va + j)) / 2 ^ 16 = 5 := by omega
  have o : loadable.frameOwner 5 = 1 := by decide +kernel
  have k : loadable.key (0x50000 + (va + j)) = 0 := by simp only [MemSys.key, f, o]; rfl
  have e : loadable.eff (0x50000 + (va + j)) = 0x50000 + (va + j) := by rw [MemSys.eff, d]; rfl
  have w : loadable.window (0x50000 + (va + j)) = none := rfl
  simp only [loadable_byte _ b, MemSys.read, e, w, d, MemSys.deviceByte, k]
  rfl
def header : List Byte := bytesAt 0 128
def segments : List Segment := (partsOf 128 2 (bytesAt 128 256)).map Segment.parse
theorem container_ok : containerOk header segments = true := by decide +kernel
theorem header_ok : loadHeader toLoad ⟨atLoad, 0, ⟨0, 0, 0, [], 0⟩, [], []⟩ = .ok (header, segments) := by
  have n : fieldAt header 8 2 = 2 := by decide +kernel
  have l : fieldAt header 0x10 8 = 0x1F0 := by decide +kernel
  have p : pkF toLoad.pkt 0x10 8 = 0 := by decide +kernel
  have m : loadable.mapped 1 true false 0 1 = true ∧ loadable.mapped 1 true false 0 (max 0x1F0 (128 + 128 * 2)) = true := by decide +kernel
  have h : loadable.readVa 1 0 128 = header := loadable_read 0 128 (by omega)
  have g : loadable.readVa 1 (0 + 128) (128 * 2) = bytesAt 128 256 := loadable_read 128 256 (by omega)
  simp only [loadHeader, p, show toLoad.owner = 1 from rfl, show atLoad.mem = loadable from rfl, h, n, l, m.1, m.2, g]
  rw [if_neg (by decide)]
  exact if_pos container_ok

def loads : LoadStep State → Bool
  | .ok _ => true
  | .error _ => false
theorem of_loads {x : LoadStep State} (h : loads x = true) : ∃ u, x = .ok u := by
  cases x with
  | ok u => exact ⟨u, rfl⟩
  | error e => cases h
theorem loadBy_of {v : Verifier} {s : State} {p : Paddock} {hdr : List Byte} {segs : List Segment}
    (e : s.holdHeader p = s) (h : loadHeader p ⟨s, 0, ⟨0, 0, 0, [], 0⟩, [], []⟩ = .ok (hdr, segs)) : s.loadBy v p = s.loadFrom v p hdr segs := by
  simp only [State.loadBy, e, h]
/-- The container lies in device memory, so that no half of host memory is held for it. -/
theorem atLoad_holdVa (va n : Nat) (h : va + n < 2 ^ 16) : atLoad.holdVa 1 va n = atLoad := by
  refine State.holdVa_device fun x hx e l p w => ?_
  have hx := halfParts_within hx
  rw [show atLoad.mem = loadable from rfl, loadable_walk (va + x.1) (by omega)] at w
  cases w
  have a : leafPa 0x010000000005000F false (va + x.1) = 5 * 2 ^ 16 + (va + x.1) % 2 ^ 16 := rfl
  rw [a, show atLoad.mem = loadable from rfl, show loadable.place (5 * 2 ^ 16 + (va + x.1) % 2 ^ 16) = .device from
    if_pos (show 5 * 2 ^ 16 + (va + x.1) % 2 ^ 16 < 2 ^ 39 - 2 ^ 33 * 0 by omega)]
  decide
theorem atLoad_holdHeader : atLoad.holdHeader toLoad = atLoad := by
  have p : pkF toLoad.pkt 0x10 8 = 0 := by decide +kernel
  have n : fieldAt header 8 2 = 2 := by decide +kernel
  have h : loadable.readVa 1 0 128 = header := loadable_read 0 128 (by omega)
  simp only [State.holdHeader, p, show toLoad.owner = 1 from rfl, atLoad_holdVa 0 128 (by omega), show atLoad.mem = loadable from rfl, h, n]
  exact atLoad_holdVa (0 + 128) (128 * 2) (by omega)
theorem verified_loads : loads (atLoad.loadFrom (fun _ _ _ => true) toLoad header segments) = true := by
  decide +kernel
/-- The launch passes every check of R82 but the signatures, on which the model takes no side (log 7): it loads
wherever they verify. -/
theorem meets_LaunchesRunAndEnd_loads (h : ∀ k d g, Config.sm2Verify k d g = true) :
    toLoad.phase = .loading ∧ atLoad.pads = [toLoad] ∧ ∃ u, atLoad.load toLoad = .ok u := by
  have e : Config.sm2Verify = fun _ _ _ => true := by funext k d g; exact h k d g
  refine ⟨rfl, rfl, of_loads ?_⟩
  rw [State.load, e, loadBy_of atLoad_holdHeader header_ok]
  exact verified_loads
/-- The launch of `atLoad` is the one that loader time goes to; one of the same function placed later waits. -/
theorem meets_LaunchesRunAndEnd_next : atLoad.nextLoad = some 1 ∧ toLoad.loaded = none ∧
    ({ atLoad with pads := [toLoad, { toLoad with pid := 2 }] } : State).nextLoad ≠ some 2 := by decide +kernel
/-- A launch that is loaded, with an access that stood when its page was marked, performed or not. -/
def loaded0 : Loaded := ⟨[], [], 0, ⟨0, 0, 0, [], 0⟩, [], [(0, 4)]⟩
theorem meets_LaunchesRunAndEnd_over : ∀ done ∈ [true, false],
    let a := access .store 0x1000 .none done
    let s := { onItsWay [a] with pads := [{ toLoad with loaded := some loaded0 }] }
    (s.pad? 1).map (fun P => (P.phase, P.loaded)) = some (.loading, some loaded0) ∧
    (loaded0.wait.all fun x => ((s.tile x.1).accs.filter fun b => b.id == x.2).all fun b => b.pieces.all (·.done)) = done := by decide +kernel
theorem meets_LaunchesRunAndEnd_curtain :
    (networked PadNet.empty id).pad? 1 = some { pad1 with net := PadNet.empty } ∧ pad1.phase = .running ∧ pad1.tiles = [0] := by decide +kernel
/-- A running launch beside a domain that is held, and one beside none. -/
theorem meets_LaunchesRunAndEnd_due : pad1.phase = .running ∧ (∀ d : Fin 8, (MemSys.reset.doms[d]).hold = false) ∧ MemSys.reset.converting = none ∧
    (({ MemSys.reset with doms := MemSys.reset.doms.set 3 { Domain.reset with hold := true } } : MemSys).doms[(3 : Fin 8)]).hold = true := by decide +kernel
/-- The launch under a curtain, its tile stopped and at rest. -/
def curtaining : State := running { pad1 with phase := .curtaining } fun T => { T with stopReq := true }
theorem meets_LaunchesRunAndEnd_save :
    (curtaining.pad? 1).map (·.phase) = some .curtaining ∧ curtaining.drained 1 0 = true ∧
    curtaining.greenUsed + imageUnits pad1.tiles.length ≤ greenUnits curtaining.mem.mode := by decide +kernel
def image0 : Image := ⟨[Tile.reset], 24, [], 0⟩
def curtained : Paddock := { pad1 with phase := .curtained, image := some image0, code := ⟨0, 0, 0, [], Config.sm3 []⟩ }
theorem meets_LaunchesRunAndEnd_resume :
    let s : State := { State.reset with pads := [curtained] }
    s.pad? 1 = some curtained ∧ curtained.phase = .curtained ∧ curtained.image = some image0 ∧ image0.frames = [] ∧
    image0.tiles.length = curtained.cols * curtained.rows ∧ findOrigin s.tileFree curtained.cols curtained.rows = some (0, 0) ∧
    (s.waiters.find? fun y => (findOrigin s.tileFree y.cols y.rows).isSome).map (·.pad) = some (some 1) ∧
    ∃ m, (s.holdVa curtained.owner curtained.code.va curtained.code.msize).refill curtained = some m := by
  refine ⟨rfl, rfl, rfl, rfl, rfl, by decide +kernel, by decide +kernel, [], ?_⟩
  · have h : MemSys.reset.mapped 1 true false 0 0 = true := by decide +kernel
    have e : halfParts 0 0 = [] := by decide
    simp [State.refill, State.holdVa, e, curtained, State.reset, pad1, MemSys.readVa, tab, storeOf, Machine.wordsOf]
    exact h
theorem meets_LaunchesRunAndEnd_kill :
    let k : KillInfo := ⟨0x10, 0, 0, 0, 0⟩
    let s := running { pad1 with phase := .killing, killed := some k } id
    let u := running { pad1 with phase := .killed, killed := some k } id
    (s.pad? 1).map (·.phase) = some .killing ∧ (s.pad? 1).map (·.image) = some none ∧ (u.pad? 1).map (·.phase) = some .killed ∧
    (u.pad? 1).map (·.killed) = some (some k) := by decide +kernel
/-- An idle context with a record that no handler has received. -/
def atFault : State := networked PadNet.empty fun T => T.modCtx 0 fun k => { k with records := [request] }
theorem meets_LaunchesRunAndEnd_completion :
    let s := networked PadNet.empty id
    (s.pad? 1).map (·.image) = some none ∧ (s.tile 0).ended = true ∧ (s.tile 0).unhandled = false ∧ (s.tile 0).quiet = true ∧
    (atFault.tile 0).unhandled = true ∧ (atFault.tile 0).ended = true := by decide +kernel
/-- A curtained tile whose matrix queue holds nothing begun. -/
theorem meets_LaunchesRunAndEnd_queue : (∀ e ∈ ((networked PadNet.empty id).tile 0).mq, e.begun = none) := by decide +kernel

/-- Context 0 has stalled 8 cycles before a MROW of panel 0, which an entry of the matrix queue writes, or does not. -/
def stalling (busy : Bool) : State :=
  (fetchingWith { Ctx.launch with stall := 8 } 64 (.mrow g0 1 0 r1)).modTile 0 fun T => { T with mq := if busy then [mEntry (.zero 0) none] else [] }
def mrowBundle : Bundle := ⟨0, false, 0, [(.m, .mrow g0 1 0 r1)]⟩
theorem waitsAt_of {s : State} {t : TileId} {c : Fin 4} {b : Bundle} (h : fetch false (storeAt (s.tile t).mem.store) 16383 ((s.tile t).ctx c).pc = .ok b) :
    s.waitsAt t c = (s.openIssue (.ctx t c) b.hdr b.n b.syls).1.bundleWaits (s.openIssue (.ctx t c) b.hdr b.n b.syls).2 := by
  rw [State.waitsAt, h]
theorem meets_StepsOfTheContext_stall : ∀ busy ∈ [true, false],
    let s := stalling busy
    (s.tile 0).run = some 0 ∧ 8 ≤ (s.ctx (.ctx 0 0)).stall ∧ (s.ctx (.ctx 0 0)).tail = none ∧ (decide (.panel ∈ s.waitsAt 0 0) = busy) ∧
    [(0 : Fin 4) + 1, 0 + 2, 0 + 3].find? (fun k => ((s.tile 0).ctx k).sel = .ready) = none := by
  intro busy h
  have f : fetch false (storeAt ((stalling busy).tile 0).mem.store) 16383 (((stalling busy).tile 0).ctx 0).pc = .ok mrowBundle := by
    cases busy <;> exact ok_of (by decide +kernel)
  simp only [waitsAt_of f]
  cases busy <;> decide +kernel
/-- A token-target fault owed for a result that lands in this cycle, or in a later one, and for those yet to be counted. -/
theorem meets_StepsOfTheContext_owed : ∀ x ∈ [(1, true), (2, false)], ∀ counted ∈ [true, false],
    let r : InFlight := ⟨.x 1 5, 0, .scalar, x.1, false, none⟩
    let l : Option (List InFlight) := if counted then some [r] else none
    let s := State.reset.modTile 0 fun T => { T.modCtx 0 (fun k => { k with flight := [r], owed := [(l, 0, 1, 2)] }) with gap := 1 }
    let T := s.tile 0
    let left := ((T.ctx 0).landDue (T.cycle + 1)).flight
    0 < T.gap ∧ T.stopReq = false ∧ (∀ k, (T.ctx k).sel ≠ .blocked ∧ (T.ctx k).fault = none ∧ (k ≠ 0 → (T.ctx k).owed = [])) ∧
    (T.ctx 0).owed = [(l, 0, 1, 2)] ∧ (decide (∃ y ∈ l.getD left, y ∈ left) = !x.2) := by decide +kernel
/-- Whether tile 0 fetches a bundle of one syllable. -/
def fetchesOne (s : State) (sl : Slot) (i : Instr) : Bool :=
  match fetch false (storeAt (s.tile 0).mem.store) 16383 ((s.tile 0).ctx 0).pc with | .ok b => b.syls == [(sl, i)] | .error _ => false
/-- A context before one syllable, in a tile where `f` holds, its guard true when the bundle is opened. -/
def waitingAt (k : Ctx) (f : Tile → Tile) (mask : Nat) (i : Instr) : State := (fetchingWith k mask i).modTile 0 f
def guarded (s : State) (sl : Slot) (i : Instr) : Bool :=
  let o := (opened s ⟨0, false, 0, [(sl, i)]⟩).1
  ({ o with issue := { o.issue with slot := sl.num } } : State).guardTrue i
def launchRing (prod rd : BitVec 32) : Ctx := Ctx.launch.modBank fun b => { b with q := b.q.set 3 { ring512 with prod := prod, rd := rd } }
/-- An x register, a v register, a predicate and a guard in flight. -/
theorem meets_StepsOfTheContext_inFlight : ∀ x ∈ [(RegWrite.x 1 5, Slot.i0, 2, Instr.add g0 .i64 1 r1 r2), (.v 1 5, .v0, 16, .vadd g0 .i8 1 r1 r2 .rne false false),
      (.p 1 true, .i0, 2, .add ⟨1, false⟩ .i64 1 r1 r2)],
    let s := waitingAt { Ctx.launch with flight := [⟨x.1, 0, .scalar, 3, false, none⟩] } id x.2.2.1 x.2.2.2
    ClearToFetch s ∧ fetchesOne s x.2.1 x.2.2.2 = true ∧ ((cycled s).ctx (.ctx 0 0)).flight = [⟨x.1, 0, .scalar, 3, false, none⟩] ∧
    (guarded s x.2.1 x.2.2.2 = true ∨ x.2.2.2.guard? = some ⟨1, false⟩) := by decide +kernel
/-- A panel that is busy, its stall short of 8 cycles and at them, and a full queue of each kind. -/
theorem meets_StepsOfTheContext_full :
    (∀ stall ∈ [7, 8], let s := (stalling true).modCtx (.ctx 0 0) fun k => { k with stall := stall }
      ClearToFetch s ∧ fetchesOne s .m (.mrow g0 1 0 r1) = true ∧ guarded s .m (.mrow g0 1 0 r1) = true ∧ ((cycled s).ctx (.ctx 0 0)).flight = [] ∧
      (s.tile 0).mq.any (fun e => e.ctx == 0 && e.work.panels.contains 0) = true) ∧
    (let s := waitingAt Ctx.launch (fun T => { T with mq := List.replicate 8 (mEntry (.zero 0) none) }) 64 (.mzero g0 1)
     ClearToFetch s ∧ fetchesOne s .m (.mzero g0 1) = true ∧ guarded s .m (.mzero g0 1) = true ∧ 8 ≤ (s.tile 0).mq.length) ∧
    (let s := waitingAt Ctx.launch (fun T => { T with e5 := List.replicate 16 ⟨4, 0, 0, .scene, true, 4, false⟩ }) 128 (.scene g0)
     ClearToFetch s ∧ fetchesOne s .e (.scene g0) = true ∧ guarded s .e (.scene g0) = true ∧ 16 ≤ (s.tile 0).e5.length) ∧
    (let s := waitingAt Ctx.launch (fun T => { T with queues := T.queues.set 3 (List.replicate 128 (queueEntry (.copy (copy0 0)) false)) }) 128 (.cpy g0 0 r1 0)
     ClearToFetch s ∧ fetchesOne s .e (.cpy g0 0 r1 0) = true ∧ guarded s .e (.cpy g0 0 r1 0) = true ∧ 128 ≤ (s.tile 0).copies) := by
  decide +kernel
/-- A ring without room, a scale queue without, and a held domain with 16 requests parked. -/
theorem meets_StepsOfTheContext_room :
    (let s := waitingAt (launchRing 0 0) id 8 (.mldv g0 3 r1 2 0)
     ClearToFetch s ∧ fetchesOne s .a (.mldv g0 3 r1 2 0) = true ∧ guarded s .a (.mldv g0 3 r1 2 0) = true ∧ ((launchRing 0 0).bank.ring 3).lsize ≠ 0) ∧
    (let k := Ctx.launch.modBank fun b => { b with sqa := List.replicate 16 (.landed 1) }
     let s := waitingAt k id 8 (.sqpush g0 0 r1 0)
     ClearToFetch s ∧ fetchesOne s .a (.sqpush g0 0 r1 0) = true ∧ guarded s .a (.sqpush g0 0 r1 0) = true ∧
     16 < (((cycled s).ctx (.ctx 0 0)).bank.scale false).length + 0 + 1) ∧
    (let k := Ctx.launch.modBank fun b => { b with h := b.h.set 2 { Handle.launch with valid := true, write := true } }
     let a (n : Nat) : Access := { access .store (0x1000 + 128 * n) .none false with id := n }
     let s := waitingAt k (fun T => { T with accs := (List.range 16).map a }) 8 (.mstv g0 r1 r2 2 0)
     let u := { s with mem := { s.mem with doms := s.mem.doms.set 0 { Domain.reset with hold := true } } }
     ClearToFetch u ∧ fetchesOne u .a (.mstv g0 r1 r2 2 0) = true ∧ guarded u .a (.mstv g0 r1 r2 2 0) = true ∧
     (((cycled u).ctx (.ctx 0 0)).bank.handle 2).valid = true ∧ (((cycled u).ctx (.ctx 0 0)).bank.handle 2).first = false ∧
     (u.mem.doms[(((cycled u).ctx (.ctx 0 0)).bank.handle 2).dom]).hold = true ∧ 16 ≤ u.parkedAt 0) := by decide +kernel
/-- The engine waits: a counter below its target, a handle in a walk, an entry of before a CPYWAIT, a scale entry that has not landed, and a ring
with nothing to pop. -/
theorem meets_StepsOfTheContext_counter :
    (let s := waitingAt (Ctx.launch.modBank fun b => { b with x := b.x.set 1 5 }) id 128 (.cntwait g0 (.reg 1) 0)
     ClearToFetch s ∧ fetchesOne s .e (.cntwait g0 (.reg 1) 0) = true ∧ guarded s .e (.cntwait g0 (.reg 1) 0) = true ∧
     (s.tile 0).mem.counter 0 < (let o := (opened s ⟨0, false, 0, [(.e, .cntwait g0 (.reg 1) 0)]⟩).1; ({ o with issue := { o.issue with slot := 7 } } : State).X 1 (.reg 1)) ∧
     (∀ x ∈ counterAddrs 0, x / 8 ∉ (s.tile 0).mem.poison)) := by decide +kernel
theorem meets_StepsOfTheContext_handle :
    (let k := Ctx.launch.modBank fun b => { b with h := b.h.set 2 { Handle.launch with pending := true } }
     ∀ i ∈ [Instr.hrel g0 2, .xlt g0 2 r1, .mldv g0 3 r1 2 0, .mstv g0 r1 r2 2 0, .disc g0 r1 r2 2],
     let s := waitingAt k id 8 i
     ClearToFetch s ∧ fetchesOne s .a i = true ∧ guarded s .a i = true ∧ (((cycled s).ctx (.ctx 0 0)).bank.handle 2).pending = true) := by decide +kernel
theorem meets_StepsOfTheContext_mark :
    (let s := waitingAt Ctx.launch (fun T => { T with queues := T.queues.set 0 [⟨0, 0, .add 0 0, 0, false, none, false, false, 0, none⟩], serial := 1 }) 128 (.cpywait g0 1)
     ClearToFetch s ∧ fetchesOne s .e (.cpywait g0 1) = true ∧ guarded s .e (.cpywait g0 1) = true ∧ ((cycled s).ctx (.ctx 0 0)).marks = none ∧
     (1 : BitVec 6).getLsbD 0 = true ∧ (s.tile 0).queues[(0 : Fin 4)].any (fun e => e.serial < (s.tile 0).serial) = true) := by decide +kernel
theorem meets_StepsOfTheContext_scale :
    (let k := Ctx.launch.modBank fun b => { b with sqa := [.claimed 4 0], sqb := [.landed 1] }
     let i : Instr := .mma g0 0 (.panel 1) (.panel 2) r1 .mx8e4 .mx8e4 0 false
     let s := waitingAt k id 64 i
     ClearToFetch s ∧ fetchesOne s .m i = true ∧ guarded s .m i = true ∧ MFmt.mx8e4.scaled = true ∧
     (∀ j, 1 ≤ ((((cycled s).ctx (.ctx 0 0)).bank.scale j).drop ((s.tile 0).reserved 0)).length) ∧
     ((((cycled s).ctx (.ctx 0 0)).bank.scale false).drop ((s.tile 0).reserved 0)).any (fun e => !e.isLanded) = true) := by decide +kernel
theorem meets_StepsOfTheContext_pop :
    (let s := waitingAt (launchRing 4 4) id 2 (.add g0 .i64 1 (.pop 3) r2)
     ClearToFetch s ∧ fetchesOne s .i0 (.add g0 .i64 1 (.pop 3) r2) = true ∧ guarded s .i0 (.add g0 .i64 1 (.pop 3) r2) = true ∧
     (((cycled s).ctx (.ctx 0 0)).bank.ring 3).lsize ≠ 0 ∧ (((cycled s).ctx (.ctx 0 0)).bank.ring 3).prod = (((cycled s).ctx (.ctx 0 0)).bank.ring 3).rd) := by decide +kernel
theorem meets_StepsOfTheContext_record :
    let s := State.reset.modCtx (.ctx 0 0) fun _ => { withVector with sel := .ready, records := [request] }
    let k := s.ctx (.ctx 0 0)
    k.records = request :: [] ∧ k.tail = none ∧ k.pending = none ∧ k.flight = [] ∧ k.sel = .ready ∧ k.trap.handling = false ∧
    k.trap.vec.getLsbD 63 = true := by decide +kernel
def fault0 (code : Nat) : SysFault := ⟨code, some 1, 0, none, 0, 0, 0⟩
theorem meets_StepsOfTheContext_fault : ∀ code ∈ [0x25, 0x20],
    let s := { State.reset with pads := [{ pad1 with pid := 2 }, pad1], faults := [{ fault0 0x22 with pad := some 2 }, fault0 code, fault0 0x22] }
    s.faults = [{ fault0 0x22 with pad := some 2 }] ++ fault0 code :: [fault0 0x22] ∧ (fault0 code).pad = some 1 ∧
    (∀ x ∈ [{ fault0 0x22 with pad := some 2 }], x.pad ≠ some 1) ∧ (s.pads.map (·.pid)).Nodup ∧ pad1 ∈ s.pads ∧ pad1.pid = 1 ∧ pad1.killed = none := by
  decide +kernel
theorem meets_StepsOfTheContext_overrun : ∀ f ∈ [[], [(⟨.x 0 5, 0, .scalar, 3, false, none⟩ : InFlight)]],
    let s := State.reset.modTile 0 fun T => { T.modCtx 0 (fun k => { k with flight := f }) with run := some 0, stopReq := true, past := 12001 }
    (s.tile 0).run = some 0 ∧ (s.tile 0).stopReq = true ∧ 12000 < (s.tile 0).past ∧ ((s.tile 0).ctx 0).flight = f := by decide +kernel
/-- A tile with an error before in another unit, or in none; ways below and at the 63rd; channel errors below and at the 15th; a paddock to kill,
beside another; and a slice of a domain that no request of the domain holds back, or one does. -/
theorem meets_DataErrors : (([{ pad1 with pid := 2 }, pad1] : List Paddock).map (·.pid)).Nodup ∧ pad1 ∈ [{ pad1 with pid := 2 }, pad1] ∧ pad1.pid = 1 ∧
    pad1.killed = none ∧ (fixedTable.doms[(0 : Fin 8)]).set.getLsbD (64 % 64) = true ∧ (fixedTable.doms[(0 : Fin 8)]).leave = 0 ∧
    (fixedTable.doms[(0 : Fin 8)]).busy = false ∧ (fixedTable.hreqs.any fun q => q.dom == 0) = false ∧ (fixedTable.doms[(0 : Fin 8)]).hold = false ∧ ([hostAsk .rdShared].any fun q => q.dom == 0) = true ∧
    Sparse.get 0 [(0, 6)] 0 ≠ 0 ∧ Sparse.get 0 [(0, 6)] 0 ≠ 3 + 1 ∧ Sparse.get 0 State.reset.dev.ways 5 < 63 ∧ Sparse.get 0 [(5, 63)] 5 = 63 ∧
    Sparse.get 0 [(5, 15)] 5 = 15 ∧ Sparse.get 0 State.reset.dev.chanErrs 5 ≠ 15 := by decide +kernel
/-- No request of a domain stands, and one of an access; a line of unbacked memory, and one of host memory that a half of is held of, modified. -/
theorem meets_DataErrors_lines :
    State.reset.requests 0 = [] ∧ (onItsWay [access .store 0x1000 .none false]).requests 0 ≠ [] ∧
    MemSys.reset.unbacked (MemSys.reset.eff (2 ^ 39)) = true ∧ MemSys.reset.unbacked (MemSys.reset.eff (2 ^ 47)) = false ∧
    (hostHalf .modified).half / 2 = MemSys.reset.eff (2 ^ 47) / 128 ∧ (hostHalf .modified).st = .modified := by decide +kernel
/-- Step 0 of R91: one bundle fetched and performed, an event at the head of the agenda, and power removed. -/
theorem meets_StepRunsTheDecodedInstruction :
    (opened fetching addBundle).1.allocation = none ∧ fetching.dev.off = false ∧ fetching.agenda = [] ∧ fetching.focus = .tile 0 ∧ addBundle.syls = [(.i0, .add g0 .i64 1 r1 r2)] ∧
    ({ State.reset with agenda := [.hotReset] } : State).agenda = .hotReset :: [] ∧ (∀ u, Instr.hotReset ≠ .bundleFetch u) ∧
    ({ State.reset with dev := { State.reset.dev with off := true } } : State).dev.off = true := by
  refine ⟨by decide +kernel, by decide +kernel, by decide +kernel, by decide +kernel, rfl, rfl, (fun _ h => nomatch h), rfl⟩

/-! Requests. -/

def sysc0 (n : BitVec 16) (args : List Word) : Call := ⟨9, 1, 0, 0, .sysc n, args, 1, none⟩
def called (c : Call) (P : Paddock) (m : MemSys) : State := { running P id with calls := [c], mem := m }
theorem meets_RequestsAreServed_standing : ∀ n ∈ [0, 1, 2, 3, 4, 0xFFF, 0x1000, 0xFFFF],
    let c := sysc0 (BitVec.ofNat 16 n) [0, 0, 0]
    let s := called c pad1 fixedTable
    s.calls.find? (fun k => k.id = 9) = some c ∧ s.pad? c.pad = some pad1 ∧ pad1.image = none ∧ c.id = 9 ∧ c.forwarded = none ∧
    (s.fns[pad1.fn]).resetting = false ∧ (s.fns[pad1.fn]).lsize = 0 ∧ (BitVec.ofNat 16 n).toNat = n := by decide +kernel
theorem meets_RequestsAreServed_resetting :
    let s := called (sysc0 1 [0]) pad1 fixedTable
    (({ s with fns := s.fns.set 0 { Fn.reset with resetting := true } } : State).fns[pad1.fn]).resetting = true := by decide +kernel
theorem meets_RequestsAreServed_page :
    fixedTable.walk 1 0 = .leaf 0x010000000005000F false 0x30000 ∧ fixedTable.walk 1 (2 ^ 42) = .absent := by decide +kernel
/-- Virtual page 0 lies in aperture frame 3, granted to owner 1. -/
def unbackedTable : MemSys :=
  { tableBytes [(0x10000, 1), (0x10002, 2), (0x20000, 1), (0x20002, 3), (0x30000, 0x8F), (0x30002, 3), (0x30004, 0x80), (0x30007, 1)] with
    grants := [(3, 1)], doms := MemSys.reset.doms.set 0 { Domain.reset with set := 1 } }
def unbackedLeaf : Nat := 0x010000800003008F
theorem meets_RequestsAreServed_late :
    unbackedTable.walk 1 0 = .leaf unbackedLeaf false 0x30000 ∧ unbackedLeaf.testBit 7 = true ∧ (0x010000000005000F : Nat).testBit 7 = false ∧
    (unbackedLeaf / 2 ^ 16 % 2 ^ 32 * 2 ^ 16 - 2 ^ 39) / 2 ^ 16 = 3 ∧ (∀ x ∈ unbackedTable.late, x.1 ≠ 3) ∧ pad1.late = [] ∧
    ({ pad1 with late := [0x70000] } : Paddock).late = [] ++ [0x70000] ∧
    ({ unbackedTable with late := [(3, 0x70000)] } : MemSys).walk 1 0 = .leaf unbackedLeaf false 0x30000 := by decide +kernel
/-- Of two paddocks of one owner the second has a late frame. -/
theorem meets_RequestsAreServed_late_pool :
    let K : Paddock := { pad1 with pid := 2, late := [0x70000] }
    let pads := [pad1] ++ K :: []
    (pads.map (·.pid)).Nodup ∧ (∀ x ∈ [pad1], x.owner = 1 → x.late = []) ∧ K.owner = 1 ∧ K.late = [] ++ [0x70000] := by decide +kernel
/-- A grant of page 0x10000, whose level-1 entry is empty, and the corners of R364: no pages, a page that is not aligned, a range beyond
the map, domains beyond 7 and without slices, more frames than are free, and a page that is mapped already. -/
theorem meets_RequestsAreServed_grant :
    let m := fixedTable
    0x10000 % 2 ^ 16 = 0 ∧ 0x10000 + 1 * 2 ^ 16 ≤ 2 ^ 55 ∧ (m.dom 0).unusable = false ∧ (m.dom 1).unusable = true ∧
    ((List.range 1024).filter fun x => !m.grants.any fun g => g.1 == x).length = 1024 ∧ (m.owners[1].root.toNat = 1) ∧
    m.tableOk 1 0 = true ∧ (m.entry 1 0).testBit 0 = true ∧ (m.entry 1 0).testBit 1 = false ∧ pointerOk (m.entry 1 0) = true ∧ m.entry 1 0 / 2 ^ 16 % 2 ^ 32 = 2 ∧
    m.tableOk 2 0 = true ∧ (m.entry 2 0).testBit 0 = true ∧ (m.entry 2 0).testBit 1 = false ∧ pointerOk (m.entry 2 0) = true ∧ m.entry 2 0 / 2 ^ 16 % 2 ^ 32 = 3 ∧
    m.tableOk 3 1 = true ∧ (m.read (3 * 2 ^ 16 + 8)).getLsbD 0 = false ∧ (m.read (3 * 2 ^ 16)).getLsbD 0 = true ∧
    0x8000 % 2 ^ 16 ≠ 0 ∧ 2 ^ 55 < 2 ^ 55 + 1 * 2 ^ 16 ∧ 7 < 8 := by decide +kernel
/-- The proxy ring of function 0 at owner 1's page, with room, and full. -/
def proxied (written : Nat) : State :=
  { called (sysc0 0x1000 [0, 0, 0, 0, 0, 0]) pad1 { fixedTable with
      tags := [(0x58000 / 128, 1), (0x58080 / 128, 1)], bytes := Sparse.put 0 fixedTable.bytes 0x58000 (BitVec.ofNat 8 written) } with
    fns := State.reset.fns.set 0 { Fn.reset with lsize := 4, owner := 1, cb := 0x8000 } }
theorem meets_RequestsAreServed_forward : ∀ p ∈ [(0, false), (15, false), (16, true)],
    ((proxied p.1).fns[pad1.fn]).lsize ≠ 0 ∧ ((proxied p.1).fns[pad1.fn]).resetting = false ∧
    (decide ((2 ^ ((proxied p.1).fns[pad1.fn]).lsize.toNat : Int) ≤
      (((proxied p.1).mem.word 1 0x8000 : Int) - (proxied p.1).mem.word 1 (0x8000 + 0x80)) % 2 ^ 64) = p.2) := by decide +kernel
theorem meets_RequestsAreServed_reply :
    (called { sysc0 0x1000 [] with forwarded := some 5 } pad1 fixedTable).calls.filter (fun x => x.forwarded.isSome)
      = [{ sysc0 0x1000 [] with forwarded := some 5 }] ∧ 5 < 2 ^ 32 := by decide +kernel
theorem meets_RequestsAreServed_reservation :
    (fixedTable.doms[(0 : Fin 8)]).set ≠ 0 ∧ (fixedTable.doms[(1 : Fin 8)]).set = 0 ∧
    ({ fixedTable.setUnits 1 0 (fixedTable.units 1 0 + 1) with rsvs := 1 :: fixedTable.rsvs.filter fun x => x != 1 } : MemSys).fits = true ∧
    ({ fixedTable.setUnits 1 0 (fixedTable.units 1 0 + 0x10000) with rsvs := 1 :: fixedTable.rsvs.filter fun x => x != 1 } : MemSys).fits = false := by
  decide +kernel
/-- Two units held and one line of them in use: all taken away, one (which leaves room for the line), more than is held; and 513 lines at one slice. -/
theorem meets_RequestsAreServed_unreserved :
    let m := { fixedTable with resv := [⟨1, 0, 2⟩], lines := [⟨2 ^ 32, 1, 0⟩] }
    (m.lines.map UnbLine.line).Nodup ∧ m.units 1 0 = 2 ∧ (m.doms[(0 : Fin 8)]).slices.length = 1 ∧
    (∀ j < 64, (m.doms[(0 : Fin 8)]).set.getLsbD j = true → m.inUse 1 0 j ≤ (2 - 1) * 512 / (m.doms[(0 : Fin 8)]).slices.length) ∧ 2 < 3 ∧ 1 < 2 ∧
    (let f := { m with lines := (List.range 513).map fun i => ⟨2 ^ 32 + i, 1, 0⟩ }
     f.inUse 1 0 0 = 513 ∧ (f.doms[(0 : Fin 8)]).set.getLsbD 0 = true ∧ ¬ f.inUse 1 0 0 ≤ (2 - 1) * 512 / (f.doms[(0 : Fin 8)]).slices.length) := by
  decide +kernel
theorem meets_RequestsAreServed_migration :
    (unbackedTable.dom 0).unusable = false ∧ unbackedTable.lines = [] ∧ unbackedTable.withinQuota 1 0 = true ∧ (0 : Nat) < 2 ^ 64 ∧
    State.reset.pads = [] := by decide +kernel

/-! Registers, owners, resets. -/

def readyState (q : QueueSlot) (m : MemSys) : State := queued q m []
/-- slot.ctl: bound, function f, class 1, lsize, owner 1. -/
def ctl (fn lsize : Nat) : BitVec 64 := BitVec.ofNat 64 (2 ^ 63 + fn * 2 ^ 58 + 2 ^ 50 + lsize * 2 ^ 41 + 2 ^ 33)
theorem meets_RegistersOwnersAndResets_bind : ∀ p ∈ [(0, 4, true), (16, 16, true), (17, 4, false), (0, 3, false), (0, 17, false)],
    let s := readyState QueueSlot.reset fixedTable
    let w := ctl p.1 p.2.1
    s.dev.ready = true ∧ (s.slots[(0 : SlotId)]).bound = false ∧ w.getLsbD 63 = true ∧
    ((w.extractLsb' 58 5).toNat < 17 && 4 ≤ (w.extractLsb' 41 5).toNat && (w.extractLsb' 41 5).toNat ≤ 16 && (s.mem.owner (w.extractLsb' 33 8)).live &&
      s.classFits 0 (w.extractLsb' 50 2).toNat) = p.2.2 := by decide +kernel
theorem meets_RegistersOwnersAndResets_update :
    let s := readyState slot0 fixedTable
    (s.slots[(0 : SlotId)]).bound = true ∧ (ctl 0 4).extractLsb' 50 2 ≠ (s.slots[(0 : SlotId)]).cls ∧ s.classFits 0 1 = true ∧
    ({ s with dev := { s.dev with clsMin := 0x40 } } : State).classFits 0 1 = false ∧ (s.slots[(0 : SlotId)]).taken = none := by decide +kernel
theorem meets_RegistersOwnersAndResets_reclaim :
    (readyState QueueSlot.reset fixedTable).victim = none ∧
    ({ readyState slot0 fixedTable with dev := { DevRegs.reset with ready := true, clsMin := 0 } } : State).victim = some 0 := by decide +kernel
/-- Green-room images of 600 units: more than mode 0 holds, less than mode 1. -/
def crowded : State := { readyState QueueSlot.reset { fixedTable with mode := 1 } with pads := [{ curtained with image := some { image0 with units := 600 } }] }
theorem meets_RegistersOwnersAndResets_mode :
    (0 : BitVec 64).setWidth 2 ≠ crowded.mem.mode ∧ greenUnits ((0 : BitVec 64).setWidth 2) < crowded.greenUsed ∧
    (1 : BitVec 64).setWidth 2 ≠ (readyState QueueSlot.reset fixedTable).mem.mode ∧
    (readyState QueueSlot.reset fixedTable).greenUsed ≤ greenUnits ((1 : BitVec 64).setWidth 2) ∧
    ({ fixedTable with mode := (1 : BitVec 64).setWidth 2 } : MemSys).fits = true := by decide +kernel
/-- A write that names the mode in force, beside a sticky bit that it clears. -/
theorem meets_RegistersOwnersAndResets_same : (0x102 : BitVec 64).setWidth 2 = ({ fixedTable with mode := 2 } : MemSys).mode ∧ (0x102 : BitVec 64).getLsbD 8 = true := by
  decide +kernel
theorem meets_RegistersOwnersAndResets_lock :
    ({ State.reset with dev := { State.reset.dev with lock := true } } : State).dev.lock = true ∧ State.reset.dev.ready = false := by decide
def nextOf (set : BitVec 64) : MemSys := { fixedTable with doms := fixedTable.doms.set 2 { Domain.reset with nextSet := set } }
theorem meets_RegistersOwnersAndResets_domain :
    ((List.range 64).filter fun i => ((nextOf 7).doms[(2 : Fin 8)]).nextSet.getLsbD i).length = 3 ∧ (∀ i < 7, 3 ≠ 2 ^ i) ∧
    ((List.range 64).filter fun i => ((nextOf 3).doms[(2 : Fin 8)]).nextSet.getLsbD i).length = 2 ^ 1 ∧
    ((List.range 64).filter fun i => ((nextOf (BitVec.allOnes 64)).doms[(2 : Fin 8)]).nextSet.getLsbD i).length = 2 ^ 6 ∧
    ({ nextOf 3 with doms := (nextOf 3).doms.set 2 ⟨3, Vector.replicate 6 0, false, true, false, false, 3, Vector.replicate 6 0, 0, []⟩ } : MemSys).fits = true := by
  decide +kernel
/-- A domain that a retired slice leaves, and one with a request outstanding. -/
theorem meets_RegistersOwnersAndResets_leaving :
    let D : Domain := { Domain.reset with set := 3, nextSet := 3, leave := 1 }
    let m := { fixedTable with doms := fixedTable.doms.set 2 D }
    (m.doms[(2 : Fin 8)]).leave ≠ 0 ∧ (m.doms[(2 : Fin 8)]).busy = false ∧ (m.halves.map HostHalf.half).Nodup ∧ (∀ z ∈ m.hreqs, z.dom ≠ 2) ∧
    ({ m with doms := m.doms.set 2 { D with set := 2, nextSet := 2, leave := 0, gen := true } } : MemSys).fits = true ∧
    ∃ z ∈ ({ m with hreqs := [⟨2 ^ 41, .rdShared, 1, 2, [], false⟩] } : MemSys).hreqs, z.dom = 2 := by
  exact ⟨by decide +kernel, by decide +kernel, by decide +kernel, by decide +kernel, by decide +kernel, _, .head _, rfl⟩
/-- A domain change that finds a request of an access made before the hold, standing or gone, with curtains that wait, beside another domain that
is held and beside none; and a launch of the owner, which a page of it that is being converted keeps. -/
theorem meets_RegistersOwnersAndResets_before : ∀ x ∈ [([((0 : TileId), 4)], true), ([((0 : TileId), 5)], false), ([], false)],
    let a := access .store 0x1000 .none false
    let D := { Domain.reset with set := 3, nextSet := 1, hold := true, before := x.1 }
    let s := { onItsWay [a] with mem := { MemSys.reset with doms := MemSys.reset.doms.set 0 D }, pads := [{ pad1 with due := true }] }
    (s.mem.doms[(0 : Fin 8)]).hold = true ∧ (s.mem.doms[(0 : Fin 8)]).before = x.1 ∧ (∀ z ∈ s.mem.hreqs, z.dom ≠ 0) ∧
    (s.mem.doms[(0 : Fin 8)]).before.any (fun y => ((s.tile y.1).requests 0).contains y.2) = x.2 ∧
    (∀ e : Fin 8, e ≠ 0 → (s.mem.doms[e]).hold = false) ∧
    (({ s.mem with doms := s.mem.doms.set 3 { Domain.reset with hold := true } } : MemSys).doms[(3 : Fin 8)]).hold = true ∧ s.mem.converting = none := by decide +kernel
theorem meets_RegistersOwnersAndResets_ready : State.reset.dev.ready = false ∧ (readyState slot0 fixedTable).dev.ready = true ∧
    fixedTable.converting = none ∧ ({ fixedTable with mode := 1 } : MemSys).mode ≠ (0 : BitVec 64).setWidth 2 ∧
    (readyState slot0 { fixedTable with mode := 1 }).greenUsed ≤ greenUnits ((0 : BitVec 64).setWidth 2) := by decide +kernel
theorem meets_RegistersOwnersAndResets_owners :
    (fixedTable.owner 1).live = true ∧ (fixedTable.owner 2).live = false ∧ (readyState slot0 fixedTable).owns 1 = true ∧
    (readyState slot0 fixedTable).owns 2 = false ∧ fixedTable.place (5 * 2 ^ 16) = .device ∧ 5 ∉ fixedTable.retired ∧
    (∀ P ∈ (readyState slot0 fixedTable).pads, P.owner ≠ fixedTable.frameOwner 5) ∧ (readyState slot0 fixedTable).dev.ownCmd = none ∧
    ¬ (({ DevRegs.reset with ownCmd := some (3, 1) } : DevRegs).ownCmd = none ∨ ({ DevRegs.reset with ownCmd := some (3, 1) } : DevRegs).ownCmd = some (1, 1)) := by
  decide +kernel
/-- A domain of one slice whose next set is empty, and the slot's halves; a function without a proxy ring, with room in it, and without. -/
theorem meets_RegistersOwnersAndResets_room : ((readyState slot0 fixedTable).fns[(0 : Fin 17)]).lsize = 0 ∧ fixedTable.halves = [] ∧ fixedTable.behind = [] ∧
    ((List.range 64).filter fun i => (0 : BitVec 64).getLsbD i).length = 0 ∧
    (∀ p ∈ [(15, true), (16, false)], (decide ((((proxied p.1).mem.word 1 0x8000 : Int) - (proxied p.1).mem.word 1 (0x8000 + 0x80)) % 2 ^ 64 < (2 ^ 4 : Nat)) = p.2)) := by
  decide +kernel

/-! The links and the box. -/

/-- Port 0: bound to launch 1 and trained as side 0; slot 0 of its period carries stream 63 from our rank 0 to theirs, 1 flit. -/
def ttEntry (side : Nat) : Word := BitVec.ofNat 64 (2 ^ 63 + side * 2 ^ 62 + 63 * 2 ^ 56)
def port0 (side : Nat) (x : PortStream) : Port :=
  { Port.reset with bound := true, trained := true, pad := some 1, table := [(0, ttEntry side)], streams := Port.reset.streams.set 63 x }
def linked (side : Nat) (x : PortStream) : State := { networked PadNet.empty id with ports := State.reset.ports.set 0 (port0 side x) }
theorem meets_LinksAtWork_port :
    let s := linked 0 PortStream.empty
    (s.port false).trained = true ∧ (s.port false).bound = true ∧ (s.port false).pad = some 1 ∧
    (s.pad? 1).map (·.image) = some none ∧ (s.port true).bound = false ∧ (s.port true).trained = false ∧ (s.port true).pad = none ∧
    ({ s with dev := { s.dev with ready := true } } : State).dev.ready = true ∧
    State.reset.dev.stage.toNat < 5 ∧ 5 ≤ ({ DevRegs.reset with stage := 5 } : DevRegs).stage.toNat ∧
    (s.port false).streamEntry 63 = some (ttEntry 0).toNat ∧ ((s.tile 0).ctx 0).records = [] := by decide +kernel
theorem meets_LinksAtWork_bind :
    (∀ x ∈ (port0 0 PortStream.empty).table, (x.2.getLsbD 63 = true → x.2.extractLsb' 0 29 = 0 ∧ (x.2.extractLsb' 29 5).toNat ≤ 15)) ∧
    (0 < ({ Port.reset with plen := 0 } : Port).period) ∧ (2 ^ 0 : Word).getLsbD 63 = false ∧ (1 : Word) ≠ 0 := by decide +kernel
/-- What its paddock has posted at a port and not finished: an LKRECV, and an LKSEND with a flit that has not left. -/
theorem meets_LinksAtWork_unbind :
    let s := linked 0 ⟨[(2, 7)], [], false, none⟩
    ((s.port false).pad.bind s.pad?).map (fun P => (P.image, P.tiles)) = some (none, [0]) ∧
    (∀ w ∈ [CopyWork.recv false 63 ⟨0, 0⟩ 0 1 none, .send false 63 ⟨0, 0⟩ 0 0 none],
      (queueEntry w false).work.port? = some false ∧ (queueEntry w false).unfinished (s.port false) = true) ∧
    (queueEntry (.add 3 5) false).work.port? = none := by decide +kernel
/-- Two entries of one stream that agree, two that do not, and one that is malformed. -/
theorem meets_LinksAtWork_tables :
    let e : Word := ttEntry 0
    (e.extractLsb' 34 22 = e.extractLsb' 34 22 ∧ e.getLsbD 62 = e.getLsbD 62) ∧ (ttEntry 1).extractLsb' 56 6 = e.extractLsb' 56 6 ∧ (ttEntry 1).getLsbD 62 ≠ e.getLsbD 62 ∧
    (0x8000000000000001 : Word).extractLsb' 0 29 ≠ 0 ∧ (0x800000000000001 : Word).getLsbD 63 = false := by decide +kernel
/-- A port that is bound while no launch has it, in a slot of ours and in a slot of theirs. -/
theorem meets_LinksAtWork_unlaunched : ∀ side ∈ [0, 1],
    let q : Port := { port0 side PortStream.empty with pad := none }
    q.trained = true ∧ q.bound = true ∧ q.pad = none ∧ (q.entry (q.frame.toNat % q.period)).testBit 63 = true := by decide +kernel
theorem meets_LinksAtWork_sends : ∀ p ∈ [(0, true), (1, false)],
    let q := (linked p.1 ⟨[(4, 7)], [], false, none⟩).port false
    let e := q.entry (q.frame.toNat % q.period)
    (e.testBit 63 = true ∧ (e.testBit 62 == q.side) = p.2) ∧ (Fin.ofNat 64 (e / 2 ^ 56)).val = 63 ∧ e / 2 ^ 29 % 32 + 1 = 1 ∧
    (q.streams[(63 : Fin 64)]).halted = false ∧ 1 ≤ (q.streams[(63 : Fin 64)]).sendBuf.length := by decide +kernel
theorem meets_LinksAtWork_lacks_and_halted :
    ¬ 1 ≤ (((linked 0 PortStream.empty).port false).streams[(63 : Fin 64)]).sendBuf.length ∧
    (((linked 0 ⟨[], [], true, none⟩).port false).streams[(63 : Fin 64)]).halted = true ∧
    (((linked 0 ⟨[], [], true, some 0⟩).port false).streams[(63 : Fin 64)]).rearm.any (fun f => decide (f ≤ 0)) = true := by decide +kernel
def frame0 (flits : List (BitVec 1024)) (null bad : Bool) (report : Option (BitVec 48)) : LinkFrame := ⟨0, 63, flits, null, bad, false, report⟩
theorem meets_LinksAtWork_arrival :
    let q := (linked 1 ⟨[], List.replicate 63 0, false, none⟩).port false
    let e := q.entry ((frame0 [0] false false none).num.toNat % q.period)
    e.testBit 63 = true ∧ (e.testBit 62 != q.side) = true ∧ (q.streams[(63 : Fin 64)]).halted = false ∧
    (q.streams[(63 : Fin 64)]).recvBuf.length + [(0 : BitVec 1024)].length ≤ 64 ∧ 64 < (q.streams[(63 : Fin 64)]).recvBuf.length + [(0 : BitVec 1024), 0].length ∧
    (frame0 [] true false none).null = true ∧ (frame0 [] false true none).bad = true := by decide +kernel
/-- A frame in error that carries a report in its header. -/
theorem meets_LinksAtWork_bad : (frame0 [] false true (some 0)).bad = true ∧ (frame0 [] false true (some 0)).report = some 0 := by decide
theorem meets_LinksAtWork_report :
    let q := (linked 0 PortStream.empty).port false
    let o := q.entry ((0 : BitVec 48).toNat % q.period)
    (frame0 [] true false (some 0)).report = some 0 ∧ o.testBit 63 = true ∧ (o.testBit 62 == q.side) = true ∧
    (q.streams[(Fin.ofNat 64 (o / 2 ^ 56))]).halted = false := by decide +kernel

def boxed (f : DevRegs → DevRegs) : State := { State.reset with dev := f { State.reset.dev with ready := true } }
theorem meets_TheDeviceInItsBox_power :
    (boxed id).dev.ready = true ∧ (3 : BitVec 64).setWidth 2 = 3#2 ∧ (2 : BitVec 64).setWidth 2 ≠ 3#2 ∧ (boxed id).dev.pwrBusy = false ∧
    (boxed fun d => { d with pwrBusy := true, heldReq := some 2 }).dev.pwrBusy = true ∧
    (boxed fun d => { d with pwrBusy := true, heldReq := some 2 }).dev.heldReq = some 2 ∧ (boxed fun d => { d with hot := true }).dev.hot = true ∧
    (0 < 256 ∧ 110 < 256 ∧ 109 < 110 ∧ 100 ≤ 109 ∧ 95 ≤ 99 ∧ 94 < 95 ∧ 601 < 65536 ∧ 600 < 601 ∧ 569 ≤ 600) := by decide
def bringUp (fw idOk : Bool) (chans : List Nat) (failed : List (Nat × Nat)) : BringUp := ⟨fw, idOk, 0xFFFF, chans, failed⟩
theorem meets_TheDeviceInItsBox_bringUp :
    (Config.fusedMin.toNat ≤ ((State.reset.dev.nextSm.map fun x => x.1).getD (bringUp true true [] []).fwver).toNat ∧
      Config.fusedMin.toNat ≤ ((State.reset.dev.nextDrover.map fun x => x.1).getD (bringUp true true [] []).fwver).toNat) ∧
    8 < ((List.range 64).filter fun c => (bringUp true true (List.range 9) []).badChans.contains c || State.reset.mem.failing.contains c).length ∧
    ((List.range 64).filter fun c => (bringUp true true (List.range 8) []).badChans.contains c || State.reset.mem.failing.contains c).length ≤ 8 ∧
    ((List.range 26).filter fun c => !((List.range 26).map fun c => (c, 3)).contains (c, 3)) = [] ∧
    (∀ row < 16, ((List.range 26).filter fun c => !(bringUp true true [] [(0, 0), (25, 15)]).failed.contains (c, row)) ≠ []) := by
  refine ⟨?_, by decide +kernel, by decide +kernel, by decide +kernel, by decide +kernel⟩
  have : Config.fusedMin.toNat < 2 ^ 16 := Config.fusedMin.isLt
  simpa [State.reset, DevRegs.reset, bringUp] using Nat.le_of_lt_succ this
/-- The working columns of a row of which column 3 failed, in ascending order; a quote of a launch that runs. -/
theorem meets_TheDeviceInItsBox_columns :
    let work := (List.range 26).filter fun c => c != 3
    work.Pairwise (· < ·) ∧ (∀ c < 30, c ∈ work ↔ c < 26 ∧ c ≠ 3) ∧ work[3]? = some 4 ∧ (1 : Nat) % 16 = 1 := by decide +kernel
theorem meets_TheDeviceInItsBox_off : State.reset.agenda = [] ∧ (∀ r l, State.reset.agenda ≠ .powerOn r :: l) := ⟨rfl, fun _ _ h => nomatch h⟩
def history0 : History := ⟨5, 1, 2 ^ 32 - 1, 0⟩
theorem meets_TheDeviceInItsBox_quote :
    let s := { State.reset with slots := State.reset.slots.set 0 { QueueSlot.reset with hist := [history0] } }
    (s.slots[(0 : SlotId)]).hist = [] ++ history0 :: [] ∧ history0.tag = 5 ∧ history0.status < 2 ^ 32 ∧ (∀ P ∈ s.pads, P.slot ≠ 0) ∧
    (∀ h ∈ (s.slots[(0 : SlotId)]).hist, h.tag ≠ 6) := by decide +kernel

/-! The whole machine. -/

theorem meets_EverySyllableIsLocal :
    (Instr.add g0 .i64 1 r1 r2).slotClass ≠ none ∧ issuing.issue.cleared = true ∧ issuing.issue.agent = .ctx 0 0 := by decide +kernel
theorem meets_DecodeAndEncodeAgree : (Instr.yield ⟨0, true⟩).SyllableIn false .k ∧ (Instr.yield ⟨0, true⟩).encode = 0x0A08000000000000 := by
  refine ⟨⟨by decide, by decide⟩, by decide⟩
theorem test_reset_is_safe : Obligations.ResetIsSafeAndHoldsTheResetValues := by
  unfold Obligations.ResetIsSafeAndHoldsTheResetValues
  refine ⟨⟨by decide, rfl⟩, ⟨rfl, rfl, rfl, rfl, rfl, rfl, rfl, rfl, rfl, rfl, rfl, rfl, rfl, rfl⟩, by decide +kernel, by decide +kernel, by decide +kernel⟩
theorem meets_EveryStepKeepsTheStateSafe : State.reset.Safe := ⟨by decide, rfl⟩

/-! Single steps with results worked out by hand from the rules. -/

/-- The write of the last result that a step put in flight in context 0 of tile 0. -/
def wrote (r : Host.Outcome State Fault Refusal) : Option RegWrite :=
  match r with
  | .next s => ((s.ctx (.ctx 0 0)).flight.getLast?).map (·.write)
  | .fault _ => none
  | .refused _ => none
/-- The flags that go with it. -/
def raised (r : Host.Outcome State Fault Refusal) : Option Flags :=
  match r with
  | .next s => ((s.ctx (.ctx 0 0)).flight.getLast?).map (·.flags)
  | .fault _ => none
  | .refused _ => none
/-- Vector registers 1, 2 and 3 of the bundle in issue. -/
def withV (a b c : VReg) : State :=
  { issuing with issue := { issuing.issue with ctx := Ctx.launch.modBank fun k => { k with v := ((k.v.set 1 a).set 2 b).set 3 c } } }
/-- The low 64 bits of a vector result. -/
def lowOf (r : Host.Outcome State Fault Refusal) : Option Nat :=
  match wrote r with
  | some (.v _ v) => some (v.toNat % 2 ^ 64)
  | _ => none

/-- R131: i8 add wraps and is sign-extended: 127 + 1 = -128. -/
theorem test_add_wraps : wrote (exec (.add g0 .i8 1 r1 r2) (withX 127 1)) = some (.x 1 (-128)) := by decide +kernel
/-- R131: SHR is zero-extended, SAR sign-extended; the amount is taken modulo the width. -/
theorem test_shifts : wrote (exec (.shr g0 .i8 1 r1 r2) (withX 0x80 9)) = some (.x 1 0x40) ∧
    wrote (exec (.sar g0 .i8 1 r1 r2) (withX 0x80 9)) = some (.x 1 (-64)) := by decide +kernel
/-- R131: the high half of (-1) × (-1) is 0 signed, and 2^64 - 2 unsigned. -/
theorem test_high_products : wrote (exec (.mulh g0 .i64 1 r1 r2) (withX (-1) (-1))) = some (.x 1 0) ∧
    wrote (exec (.mulhu g0 .i64 1 r1 r2) (withX (-1) (-1))) = some (.x 1 (-2)) := by decide +kernel
/-- R132: division by zero, and the most negative number over -1. -/
theorem test_division_corners : wrote (exec (.div g0 .i32 1 r1 r2) (withX 5 0)) = some (.x 1 (-1)) ∧
    wrote (exec (.rem g0 .i32 1 r1 r2) (withX 5 0)) = some (.x 1 5) ∧
    wrote (exec (.div g0 .i32 1 r1 r2) (withX 0x80000000 (-1))) = some (.x 1 0xFFFFFFFF80000000) := by decide +kernel
/-- R131: leading zeros count within the type's width. -/
theorem test_clz : wrote (exec (.clz g0 .i16 1 r1) (withX 0x0100 0)) = some (.x 1 7) := by decide +kernel
/-- R135: bits 11 to 4 of 0xAB0 are 0xAB. -/
theorem test_extb : wrote (exec (.extb g0 1 r1 4 7 true) (withX 0xAB0 0)) = some (.x 1 0xFFFFFFFFFFFFFFAB) ∧
    wrote (exec (.insb g0 1 r1 60 3) (withX 0xF 0)) = some (.x 1 0xF00000000000000F) := by decide +kernel
/-- R136: -1 is below 0 signed and not unsigned. -/
theorem test_cmp : wrote (exec (.cmp g0 .i64 1 r1 r2 .lt) (withX (-1) 0)) = some (.p 1 true) ∧
    wrote (exec (.cmp g0 .i64 1 r1 r2 .ltu) (withX (-1) 0)) = some (.p 1 false) := by decide +kernel
/-- R140: 1.0 + 2.0 = 3.0 in f32; 1.0 / 0 is infinity with DZ. -/
theorem test_fadd : wrote (exec (.fadd g0 .f32 1 r1 r2 .rne) (withX 0x3F800000 0x40000000)) = some (.x 1 0x40400000) := by decide +kernel
theorem test_fdiv_by_zero : wrote (exec (.fdiv g0 .f32 1 r1 r2 .rne) (withX 0x3F800000 0)) = some (.x 1 0x7F800000) ∧
    raised (exec (.fdiv g0 .f32 1 r1 r2 .rne) (withX 0x3F800000 0)) = some Flags.dz := by decide +kernel
/-- R140: the square root of -1.0 is invalid. -/
theorem test_fsqrt_invalid : raised (exec (.fsqrt g0 .f16 1 r1 .rne) (withX 0xBC00 0)) = some Flags.nv := by decide +kernel
/-- R142: 2.5 rounds to the even 2 under rne. -/
theorem test_fcvt : wrote (exec (.fcvt g0 .i32 1 r1 .rne .f32 false) (withX 0x40200000 0)) = some (.x 1 2) := by decide +kernel
/-- R143: a NaN is unordered, and LT raises NV. -/
theorem test_fcmp_nan : wrote (exec (.fcmp g0 .f32 1 r1 r2 .un) (withX 0x7FC00000 0)) = some (.p 1 true) ∧
    raised (exec (.fcmp g0 .f32 1 r1 r2 .lt) (withX 0x7FC00000 0)) = some Flags.nv := by decide +kernel
/-- R96: a false guard keeps a syllable from performing. -/
theorem test_false_guard : wrote (exec (.add ⟨0, true⟩ .i64 1 r1 r2) (withX 1 1)) = none := by decide +kernel
/-- R231: i8 lanes wrap apart, and saturate under sat. -/
theorem test_vadd : lowOf (exec (.vadd g0 .i8 1 r1 r2 .rne false false) (withV 0x01FF 0x0101 0)) = some 0x0200 ∧
    lowOf (exec (.vadd g0 .i8 1 r1 r2 .rne true true) (withV 0x01FF 0x0101 0)) = some 0x02FF := by decide +kernel
/-- R236, R237: lanes equal to zero select the first source. -/
theorem test_vsel : lowOf (exec (.vsel g0 .i16 1 r1 r2 r3) (withV 0x1111222233334444 0xAAAABBBBCCCCDDDD 0x80000000FFFF0001)) =
    some 0x1111BBBB3333DDDD := by decide +kernel
/-- R247: an index beyond the lanes gives 0. -/
theorem test_vperm : lowOf (exec (.vperm g0 .i32 1 r1 r2) (withV 0x0000000700000009 0x0000004000000001 0)) = some 7 := by decide +kernel
/-- R249: the set lanes are packed. -/
theorem test_vcomp : (match exec (.vcomp g0 .i32 1 r1 r2 3) (withV 0x0000000700000009 0x8000000000000000 0) with
    | .next s => (s.ctx (.ctx 0 0)).flight.map (·.write) | _ => []) = [.v 1 7, .x 3 1] := by decide +kernel
/-- R160, R176: a store through a window of 16 bytes wraps, and a load reads it back sign-extended. -/
def windowed : State :=
  let k := (Ctx.launch.modBank fun b => { b with w := b.w.set 0 ⟨0x100, 16⟩, x := (b.x.set 1 14).set 2 0x8081 })
  { issuingAs k with issue := { issuing.issue with ctx := k } }
theorem test_sts_wraps : (match exec (.sts g0 .i32 r2 r1 0 0) windowed with
    | .next s => [0x10E, 0x10F, 0x100, 0x101].map (Sparse.get 0 (s.tile 0).mem.spad) | _ => []) = [0x81, 0x80, 0, 0] := by decide +kernel
/-- R123 to R125: CLOSE marks the top entry. -/
theorem test_close : (match exec (.close g0) (issuingAs (Ctx.launch.modBank fun b => { b with loops := [entry 0] })) with
    | .next s => (s.ctx (.ctx 0 0)).bank.loops.map (·.closed) | _ => []) = [true] := by decide +kernel
/-- R147: CALL puts the index after its bundle in x31. -/
theorem test_call : wrote (exec (.call g0 5) issuing) = some (.x 31 2) := by decide +kernel
/-- R156: ctx.fp.sst keeps 5 bits, and CSRRD of it reads 0 at launch. -/
theorem test_csrwr : (match exec (.csrwr g0 3 r1 0x200) (withX 0xFF 0) with
    | .next s => (s.ctx (.ctx 0 0)).fp.sst | _ => 0) = 0x1F := by decide +kernel
/-- R200, R203: CNTADD at issue adds to counter 511. -/
theorem test_cntadd : (match exec (.cntadd g0 r1 7 511) (withX 0x1234 0) with
    | .next s => (s.tile 0).mem.counter 511 | _ => 0) = 0x1234 := by decide +kernel
/-- R358: power above the limit steps the clock down by 100 MHz. -/
theorem test_power_sample : (match exec (.powerSample 50 601) (boxed id) with | .next s => s.dev.clk | _ => 0) = 1800 := by decide +kernel
/-- R359: once power is removed a step stops. -/
theorem test_power_removed : (match step { State.reset with dev := { State.reset.dev with off := true } } with | .fault .powerRemoved => true | _ => false) = true := by
  decide +kernel
/-- R91, R97, R130: a step fetches, issues and performs the bundle of one ADD; the next header index follows. -/
theorem test_step_runs_add : (match step fetching with
    | .next s => ((s.ctx (.ctx 0 0)).pc, (s.ctx (.ctx 0 0)).flight.map (·.write), s.issue.cleared) | _ => (0, [], true)) = (2, [.x 1 0], false) := by decide +kernel

end Sys2Proof.Tests
end

section
/-!
PROOF. The CSR instructions (R156): what each register takes from a write, what each shows on a read, and the step
of each instruction.
-/
namespace Sys2Proof.Machine

/-- A performing syllable of a bundle that has issued answers what it performs (R96, R97). -/
theorem Performs.syllable_eq {i : Instr} {s : State} (h : Performs i s) (p : State → State) :
    syllable i p s = .next (p s) :=
  syllable_runs h.1 h.2

/-! Predicates in a register image: bit 0 is p0, which is always true (R93, R127). -/

theorem ofNat_half_two_add_one (v : BitVec 8) : BitVec.ofNat 8 (v.toNat / 2 * 2 + 1) = v ||| 1 := by
  revert v; decide

theorem Bank.predImage_eq (b : Bank) : b.predImage = (b.s ++ (b.p ||| 1)).setWidth 64 := by
  have hp : (b.p ||| 1).toNat = b.p.toNat / 2 * 2 + 1 := by
    rw [← ofNat_half_two_add_one, BitVec.toNat_ofNat]; omega
  apply BitVec.eq_of_toNat_eq
  rw [BitVec.toNat_setWidth, BitVec.toNat_append, ← Nat.shiftLeft_add_eq_or_of_lt (b.p ||| 1).isLt, hp, Nat.shiftLeft_eq]
  simp only [predImage, BitVec.toNat_ofNat]
  congr 1
  omega

theorem Bank.setPred_eq (b : Bank) (w : Word) :
    b.setPred w = { b with p := w.setWidth 8 ||| 1, s := (w >>> 8).setWidth 8 } := by
  have hp : BitVec.ofNat 8 (w.toNat % 256 / 2 * 2 + 1) = w.setWidth 8 ||| 1 := by
    rw [← ofNat_half_two_add_one, BitVec.toNat_setWidth]
  have hs : BitVec.ofNat 8 (w.toNat / 256) = (w >>> 8).setWidth 8 := by
    apply BitVec.eq_of_toNat_eq
    simp [Nat.shiftRight_eq_div_pow]
  rw [setPred, hp, hs]

/-! A write (R5, R127, R224, R317, R318). -/

/-- The registers that a CSR write can change. -/
def writableCsrs : List (BitVec 12) := [0x008, 0x100, 0x102, 0x106, 0x107, 0x108, 0x200, 0x201, 0x202]

theorem Ctx.setCsr_readOnly (c : Ctx) {k : BitVec 12} (h : k ∉ writableCsrs) (w : Word) : c.setCsr k.toNat w = c := by
  simp only [writableCsrs, List.mem_cons, List.not_mem_nil, or_false, not_or, ← BitVec.toNat_inj,
    BitVec.ofNat_eq_ofNat, BitVec.reduceToNat] at h
  simp only [setCsr, h, if_false]

/-- What a CSR write leaves in the context, register by register. -/
theorem Ctx.setCsr_toNat (c : Ctx) (k : BitVec 12) (w : Word) : c.setCsr k.toNat w =
    if k = 0x008 then { c with bank := { c.bank with p := w.setWidth 8 ||| 1, s := (w >>> 8).setWidth 8 } }
    else if k = 0x100 then { c with trap := { c.trap with vec := w &&& 0x8000000000003FFF } }
    else if k = 0x102 ∧ c.trap.handling = true then { c with trap := { c.trap with ret := w &&& 0x3FFF } }
    else if k = 0x106 ∧ c.trap.handling = true then { c with trap := { c.trap with pred := (w &&& 0xFFFE) ||| 1 } }
    else if k = 0x107 ∧ w.getLsbD 62 = true then { c with trap := { c.trap with ovf := false } }
    else if k = 0x108 ∧ c.trap.handling = true ∧ w.getLsbD 63 = true then { c with trap := { c.trap with keep := none } }
    else if k = 0x200 then { c with fp := { c.fp with sst := w.setWidth 6 &&& 0x1F } }
    else if k = 0x201 then { c with fp := { c.fp with vst := w.setWidth 6 } }
    else if k = 0x202 then { c with fp := { c.fp with mst := w.setWidth 6 &&& 0x37 } }
    else c := by
  by_cases h : k ∈ writableCsrs
  · simp only [writableCsrs, List.mem_cons, List.not_mem_nil, or_false] at h
    rcases h with rfl | rfl | rfl | rfl | rfl | rfl | rfl | rfl | rfl <;> simp [setCsr, Bank.setPred_eq]
  · rw [setCsr_readOnly c h]
    simp only [writableCsrs, List.mem_cons, List.not_mem_nil, or_false, not_or] at h
    simp only [h, false_and, if_false]

/-! A read (R127, R224, R317). -/

section
variable {s : State} {t : TileId} {c : Fin 4} {k : Nat}

/-- A register of the context shows what the context held when its bundle issued. -/
theorem State.csr_ofCtx (h : s.issue.agent = .ctx t c) (own : tileCsrNumber k = false := by rfl)
    (hid : k ≠ 0 := by decide) (hpc : k ≠ 1 := by decide) (hcycle : k ≠ 0x30 := by decide) :
    s.csr k = s.issue.ctx.ownCsr k := by
  simp [csr, h, own, hid, hpc, hcycle]

/-- A register of the tile shows what the tile holds. -/
theorem State.csr_ofTile (h : s.issue.agent = .ctx t c) (shared : tileCsrNumber k = true) : s.csr k = s.tileCsr t c k := by
  have hid : k ≠ 0 := by rintro rfl; simp [tileCsrNumber] at shared
  have hpc : k ≠ 1 := by rintro rfl; simp [tileCsrNumber] at shared
  have hcycle : k ≠ 0x30 := by rintro rfl; simp [tileCsrNumber] at shared
  simp [csr, h, shared, hid, hpc, hcycle]

theorem State.tileCsr_cond (s : State) (t : TileId) (c : Fin 4) (w : Fin 64) :
    s.tileCsr t c (0x40 + w.val) = ((s.tile t).pr.cond[w]).setWidth 64 := by
  have hw := w.isLt
  have below {n : Nat} (hn : n < 0x40) : 0x40 + w.val ≠ n := by omega
  have word : 0x40 ≤ 0x40 + w.val ∧ 0x40 + w.val < 0x80 := by omega
  simp [tileCsr, below, word]

/-- The floating-point registers (R224). -/
theorem State.csr_fp (h : s.issue.agent = .ctx t c) :
    let fp := s.issue.ctx.fp
    s.csr 0x200 = fp.sst.setWidth 64 ∧ s.csr 0x201 = fp.vst.setWidth 64 ∧ s.csr 0x202 = fp.mst.setWidth 64 ∧
    s.csr 0x203 = (fp.sst ||| fp.vst ||| fp.mst).setWidth 64 ∧ s.csr 0x204 = fp.win.setWidth 64 :=
  ⟨csr_ofCtx h, csr_ofCtx h, csr_ofCtx h, csr_ofCtx h, csr_ofCtx h⟩

/-- The trap registers that show what delivery saved (R317). -/
theorem State.csr_trap (h : s.issue.agent = .ctx t c) :
    let trap := s.issue.ctx.trap
    s.csr 0x100 = trap.vec ∧ s.csr 0x101 = trap.cause ∧ s.csr 0x102 = trap.ret ∧ s.csr 0x103 = trap.src ∧
    s.csr 0x104 = trap.info0 ∧ s.csr 0x105 = trap.info1 ∧ s.csr 0x106 = trap.pred :=
  ⟨csr_ofCtx h, csr_ofCtx h, csr_ofCtx h, csr_ofCtx h, csr_ofCtx h, csr_ofCtx h, csr_ofCtx h⟩

/-- ctx.trap.stat, ctx.trap.keep and ctx.pred (R127, R317). -/
theorem State.csr_stat_keep_pred (h : s.issue.agent = .ctx t c) :
    let K := s.issue.ctx
    s.csr 0x107 = K.trapStat ∧ s.csr 0x108 = (if K.trap.keep.isSome then 1#64 <<< 63 else 0) ∧
    s.csr 0x008 = K.bank.predImage :=
  ⟨csr_ofCtx h, csr_ofCtx h, csr_ofCtx h⟩

/-- What a context reads of itself and of its bundle (R127). -/
theorem State.csr_context (h : s.issue.agent = .ctx t c) :
    let K := s.issue.ctx
    s.csr 0x000 = BitVec.ofNat 64 c.val ∧ s.csr 0x001 = BitVec.ofNat 64 s.issue.hdr ∧ s.csr 0x002 = K.arg ∧
    s.csr 0x003 = K.node.setWidth 64 ∧ s.csr 0x030 = BitVec.ofNat 64 (s.tile t).cycle ∧
    s.csr 0x031 = BitVec.ofNat 64 K.issued :=
  ⟨by simp [csr, h, Agent.number], rfl, csr_ofCtx h, csr_ofCtx h, by simp [csr, h, State.now], csr_ofCtx h⟩

/-- What a context reads of its tile (R127). -/
theorem State.csr_tile (h : s.issue.agent = .ctx t c) :
    s.csr 0x004 = (if (s.tile t).lead = some c then 1 else 0) ∧ s.csr 0x023 = (s.tile t).stage.setWidth 64 ∧
    s.csr 0x028 = (s.tile t).scene.setWidth 64 ∧
    ∀ w : Fin 64, s.csr (0x40 + w.val) = ((s.tile t).pr.cond[w]).setWidth 64 :=
  ⟨csr_ofTile h rfl, csr_ofTile h rfl, csr_ofTile h rfl, fun w => by
    rw [csr_ofTile h (by simp [tileCsrNumber]; omega), tileCsr_cond]⟩
end

/-- ctx.trap.stat as one sum of its fields (R317). -/
theorem Ctx.trapStat_toNat (c : Ctx) :
    c.trapStat.toNat = c.trap.handling.toNat * 2 ^ 63 + c.trap.ovf.toNat * 2 ^ 62 + c.records.length % 32 := by
  have := c.trap.handling.toNat_lt
  have := c.trap.ovf.toNat_lt
  simp only [trapStat, pack, BitVec.toNat_ofNat]
  omega

theorem Ctx.trapStat_bits (c : Ctx) :
    c.trapStat.getLsbD 63 = c.trap.handling ∧ c.trapStat.getLsbD 62 = c.trap.ovf := by
  have hhandling := c.trap.handling.toNat_lt
  have hovf := c.trap.ovf.toNat_lt
  have bit63 : c.trapStat.toNat / 2 ^ 63 % 2 = c.trap.handling.toNat := by rw [trapStat_toNat]; omega
  have bit62 : c.trapStat.toNat / 2 ^ 62 % 2 = c.trap.ovf.toNat := by rw [trapStat_toNat]; omega
  simp only [← BitVec.testBit_toNat, Nat.testBit_eq_decide_div_mod_eq, bit63, bit62, Bool.toNat_eq_one, Bool.decide_eq_true,
    and_self]

theorem Ctx.trapStat_records (c : Ctx) : c.trapStat.toNat % 2 ^ 62 = c.records.length % 32 := by
  rw [trapStat_toNat]; omega

/-- Bits 7 to 0 of an image of the predicates are p, with p0 true, and bits 15 to 8 are s. -/
theorem Bank.predImage_getLsbD (b : Bank) (j : Nat) :
    b.predImage.getLsbD j = if j < 8 then (b.p ||| 1).getLsbD j else b.s.getLsbD (j - 8) := by
  rw [predImage_eq, BitVec.getLsbD_setWidth, BitVec.getLsbD_append]
  by_cases hj : j < 64
  · simp [hj]
  · simp [hj, show ¬ j < 8 by omega, show 8 ≤ j - 8 by omega]

theorem Bank.predImage_p0 (b : Bank) : b.predImage.getLsbD 0 = true := by
  simp [predImage_getLsbD]

theorem Bank.predImage_p (b : Bank) {j : Nat} (hp : 1 ≤ j) (hj : j < 8) : b.predImage.getLsbD j = b.p.getLsbD j := by
  have hone : (1 : BitVec 8).getLsbD j = false := by
    simp; omega
  rw [predImage_getLsbD, if_pos hj, BitVec.getLsbD_or, hone, Bool.or_false]

theorem Bank.predImage_s (b : Bank) (j : Nat) : b.predImage.getLsbD (8 + j) = b.s.getLsbD j := by
  rw [predImage_getLsbD, if_neg (by omega), Nat.add_sub_cancel_left]

theorem Bank.predImage_above (b : Bank) {j : Nat} (hj : 16 ≤ j) : b.predImage.getLsbD j = false := by
  rw [predImage_getLsbD, if_neg (by omega), BitVec.getLsbD_of_ge _ _ (by omega)]

/-! Each instruction's step (R156). -/

section
variable {s : State} {g : Guard} {d : Fin 32} {a : Src} {k : BitVec 12}

theorem exec_csrrd (h : Performs (.csrrd g d k) s) :
    exec (.csrrd g d k) s = .next (s.result (.x d (s.csr k.toNat)) 0 .scalar 1) :=
  show execCsrrd g d k s = _ from h.syllable_eq _

theorem exec_csrwr (h : Performs (.csrwr g d a k) s) :
    exec (.csrwr g d a k) s = .next (s.csrOp d k (s.X 1 a)) :=
  show execCsrwr g d a k s = _ from h.syllable_eq _

theorem exec_csrset (h : Performs (.csrset g d a k) s) :
    exec (.csrset g d a k) s = .next (s.csrOp d k (s.csr k.toNat ||| s.X 1 a)) :=
  show execCsrset g d a k s = _ from h.syllable_eq _

theorem exec_csrclr (h : Performs (.csrclr g d a k) s) :
    exec (.csrclr g d a k) s = .next (s.csrOp d k (s.csr k.toNat &&& ~~~(s.X 1 a))) :=
  show execCsrclr g d a k s = _ from h.syllable_eq _
end

/-- Settles O17: each write register by register, each read by the register's own lemma. -/
theorem csrReadsAndWrites : Obligations.CsrReadsAndWrites := by
  unfold Obligations.CsrReadsAndWrites
  refine ⟨fun s g d a k => ?_, fun s t c => ?_⟩
  · intro old put wrote
    have written (w : Word) : Host.Outcome.next (s.csrOp d k w) = wrote w := by
      have hput : (fun c : Ctx => c.setCsr k.toNat w) = put w := funext fun c => c.setCsr_toNat k w
      simp only [State.csrOp, hput, wrote, old]
    exact ⟨exec_csrrd, fun h => (exec_csrwr h).trans (written _), fun h => (exec_csrset h).trans (written _),
      fun h => (exec_csrclr h).trans (written _)⟩
  · intro K h
    obtain ⟨hsst, hvst, hmst, hany, hwin⟩ := State.csr_fp h
    obtain ⟨hvec, hcause, hret, hsrc, hinfo0, hinfo1, hsaved⟩ := State.csr_trap h
    obtain ⟨hstat, hkeep, hpred⟩ := State.csr_stat_keep_pred h
    obtain ⟨hid, hpc, harg, hnode, hcycle, hissued⟩ := State.csr_context h
    obtain ⟨hlead, hstage, hscene, hcond⟩ := State.csr_tile h
    have any (j : Nat) : (s.csr 0x203).getLsbD j =
        ((s.csr 0x200).getLsbD j || (s.csr 0x201).getLsbD j || (s.csr 0x202).getLsbD j) := by
      rw [hsst, hvst, hmst, hany, BitVec.setWidth_or, BitVec.setWidth_or, BitVec.getLsbD_or, BitVec.getLsbD_or]
    have records (few : K.records.length < 32) : (s.csr 0x107).toNat % 2 ^ 62 = K.records.length := by
      rw [hstat, Ctx.trapStat_records, Nat.mod_eq_of_lt few]
    have keep : (s.csr 0x108).getLsbD 63 = K.trap.keep.isSome ∧ (s.csr 0x108).toNat % 2 ^ 63 = 0 := by
      rw [hkeep]
      generalize K.trap.keep.isSome = kept
      cases kept <;> decide
    have statBits : (s.csr 0x107).getLsbD 63 = K.trap.handling ∧ (s.csr 0x107).getLsbD 62 = K.trap.ovf :=
      hstat ▸ Ctx.trapStat_bits K
    have p0 : (s.csr 0x008).getLsbD 0 = true := by
      rw [hpred, Bank.predImage_p0]
    have widened {n : Nat} {k : Nat} {v : BitVec n} (hk : s.csr k = v.setWidth 64) (hn : n ≤ 64 := by decide) :
        (s.csr k).toNat = v.toNat := by
      rw [hk, BitVec.toNat_setWidth_of_le hn]
    have number : (s.csr 0x000).toNat = c.val := by
      rw [hid, BitVec.toNat_ofNat]; omega
    exact ⟨widened hsst, widened hvst, widened hmst, fun j _ => any j, widened hwin, hvec, hcause, hret, hsrc, hinfo0,
      hinfo1, hsaved, statBits.1, statBits.2, records, keep.1, keep.2, p0,
      fun _ hp hj => hpred ▸ K.bank.predImage_p hp hj, fun j _ => hpred ▸ K.bank.predImage_s j,
      fun _ hj => hpred ▸ K.bank.predImage_above hj, number, hpc, harg, widened hnode, hlead, hcycle, hissued,
      widened hstage, widened hscene, fun w => widened (hcond w)⟩

end Sys2Proof.Machine
end
